-- ==== Sys2Proof/Word.lean ====
section
/-! DEFINITION. The two word types of CORE: every host transaction and every core access moves one
byte (20_memory.md R62), and one register is twice that wide (10_state.md R25). -/

namespace Sys2Proof

/-- A byte: the width `W` = 8 of operands, results and buffer bytes (00_scope.md R3). -/
abbrev Byte := BitVec 8

/-- The widened product, `WW` = 16 bits (00_scope.md R3). -/
abbrev Wide := BitVec 16

/-- An address of the host register space: 5 bits (20_memory.md R60). -/
abbrev HostAddr := BitVec 5

end Sys2Proof
end

