-- ==== Sys2Proof/Syntax.lean ====
section
/-! DEFINITION. The four commands (30_encoding.md R91), the entries of the total order the machine
consumes (20_memory.md R69), and the statements of a host program (30_encoding.md R98, R99). -/

namespace Sys2Proof

/-- The commands, one constructor per row of the opcode table. None has an operand field: operands
come from the input buffer or from constants (30_encoding.md R90). -/
inductive Instr where
  /-- fixed-parameter modular exponentiation (41_modexp.md R150) -/
  | expf
  /-- variable-parameter modular exponentiation (41_modexp.md R151) -/
  | expv
  /-- early-exit comparison, Variant A (42_compare.md R180) -/
  | cmpe
  /-- uniform-time comparison, Variant B (42_compare.md R181) -/
  | cmpu
deriving DecidableEq, Repr

/-- One entry of the total order of host transactions, core steps and reset events
(20_memory.md R69, 40_invocation.md R120). The list of entries still to come is the model's rendering
of "who moves next". DESIGN CHOICE, log entry 1. -/
inductive Input where
  /-- `HostWrite(a, v)` -/
  | wr (a : HostAddr) (v : Byte)
  /-- `HostRead(a)` -/
  | rd (a : HostAddr)
  /-- a reset event `RST` (70_reset_and_hazards.md R240) -/
  | rst
  /-- the core's turn: one core step when one is enabled -/
  | core
  /-- the host's `WAIT`: poll `STATUS` until `BUSY` reads 0 (30_encoding.md R99) -/
  | wait
  /-- the tail of the host's `GET`: read `STATUS`, then, if `DONE`, the tag and the result
  (30_encoding.md R99) -/
  | answer
deriving DecidableEq, Repr

/-- A statement of a host program (30_encoding.md R98 and the pseudo-statements of R99). -/
inductive Stmt where
  | wr (a : HostAddr) (v : Byte)
  | rd (a : HostAddr)
  /-- a bare command, without operands -/
  | cmd (i : Instr)
  /-- `EXPV m, e, n` -/
  | expvOf (m e n : Byte)
  /-- `CMPE b0, …, b9` -/
  | cmpeOf (bs : List Byte)
  /-- `CMPU b0, …, b9` -/
  | cmpuOf (bs : List Byte)
  /-- `CMPE "s"` with the characters of the string in order -/
  | cmpeText (cs : List Char)
  /-- `CMPU "s"` with the characters of the string in order -/
  | cmpuText (cs : List Char)
  | wait
  | get
deriving DecidableEq, Repr

end Sys2Proof
end

