-- ==== Sys2Proof/WellFormed.lean ====
section
/-! DEFINITION. Which terms of the syntax stand for something. -/

namespace Sys2Proof

/-- Every command is well formed: it has no field that could be out of range (30_encoding.md R90). -/
def Instr.wf : Instr → Bool
  | .expf => true
  | .expv => true
  | .cmpe => true
  | .cmpu => true

/-- The pseudo-statements `CMPE` and `CMPU` with operands take exactly ten bytes, the whole input
buffer (30_encoding.md R99). -/
def tenBytes (bs : List Byte) : Bool := bs.length == 10

/-- The string form takes ten characters, each a 7-bit ASCII code (30_encoding.md R98, R99). -/
def tenCharacters (cs : List Char) : Bool := cs.length == 10 && cs.all (fun c => c.toNat < 128)

/-- A statement is well formed when its operands are as R99 writes them. -/
def Stmt.wf : Stmt → Bool
  | .wr _ _ => true
  | .rd _ => true
  | .cmd i => i.wf
  | .expvOf _ _ _ => true
  | .cmpeOf bs => tenBytes bs
  | .cmpuOf bs => tenBytes bs
  | .cmpeText cs => tenCharacters cs
  | .cmpuText cs => tenCharacters cs
  | .wait => true
  | .get => true

end Sys2Proof
end

