-- ==== Sys2Proof/Decode.lean ====
section
/-! DEFINITION. The decoder of the command byte (30_encoding.md R90 to R92, R100), the encoder, and
the expansion of host-program statements (R98, R99). -/

namespace Sys2Proof

/-- Why a byte is no command. -/
inductive Reject where
  /-- the field `ZERO` = bits 7:2 is not 0b000000 (30_encoding.md R90, R92) -/
  | zeroFieldSet
deriving DecidableEq, Repr

/-- Bits 7:2 of a command byte, the field `ZERO` (30_encoding.md R90). -/
def fieldZero (c : Byte) : BitVec 6 := c.extractLsb' 2 6

/-- Bit 1 of a command byte, the field `UNIT`: 0 engine, 1 comparator (30_encoding.md R90). -/
def fieldUnit (c : Byte) : Bool := c.getLsbD 1

/-- Bit 0 of a command byte, the field `VAR` (30_encoding.md R90). -/
def fieldVar (c : Byte) : Bool := c.getLsbD 0

/-- The decode procedure: total, every byte gets one of five verdicts (30_encoding.md R100). -/
def decode (c : Byte) : Except Reject Instr :=
  if fieldZero c ≠ 0 then .error .zeroFieldSet
  else
    match fieldUnit c, fieldVar c with
    | false, false => .ok .expf
    | false, true => .ok .expv
    | true, false => .ok .cmpe
    | true, true => .ok .cmpu

/-- The command byte of each command, from the opcode map (30_encoding.md R91). -/
def encode : Instr → Byte
  | .expf => 0x00
  | .expv => 0x01
  | .cmpe => 0x02
  | .cmpu => 0x03

/-- The command byte that table bits `w` of width `nbits` stand for; a command is one byte, so bits
above the eighth belong to no command. -/
def tableByte (nbits w : Nat) : Byte := BitVec.ofNat 8 (w % 2 ^ nbits)

/-- What the decoder reads from the table bits `w` of width `nbits`. -/
def decodeTableWord (nbits w : Nat) : Option Instr :=
  if w % 2 ^ nbits < 256 then
    match decode (tableByte nbits w) with
    | .ok i => some i
    | .error _ => none
  else none

/-- The host address of the `CMD` port (20_memory.md R61). -/
def addrCmd : HostAddr := 0x00
/-- The host address of `STATUS` (20_memory.md R61). -/
def addrStatus : HostAddr := 0x01
/-- The host address of `RESULT` (20_memory.md R61). -/
def addrResult : HostAddr := 0x02
/-- The host address of `RTAG` (20_memory.md R61). -/
def addrRtag : HostAddr := 0x03
/-- The host address of `IBUF[0]` (20_memory.md R61). -/
def addrIbuf : HostAddr := 0x10

/-- The host transaction by which a command byte reaches CORE: a write of it to `CMD`
(10_state.md R38). -/
def commandWrite (c : Byte) : Input := .wr addrCmd c

/-- The ASCII code of a character (93_implementation_defined.md U9; log entry 14). -/
def asciiByte (c : Char) : Byte := BitVec.ofNat 8 c.toNat

/-- Writes of consecutive buffer bytes, the first at `a` (30_encoding.md R99). -/
def bufferWrites : HostAddr → List Byte → List Input
  | _, [] => []
  | a, b :: bs => .wr a b :: bufferWrites (a + 1) bs

/-- The expansion of a statement into entries of the total order (30_encoding.md R98, R99). -/
def Stmt.expand : Stmt → List Input
  | .wr a v => [.wr a v]
  | .rd a => [.rd a]
  | .cmd i => [commandWrite (encode i)]
  | .expvOf m e n => bufferWrites addrIbuf [m, e, n] ++ [commandWrite (encode .expv)]
  | .cmpeOf bs => bufferWrites addrIbuf bs ++ [commandWrite (encode .cmpe)]
  | .cmpuOf bs => bufferWrites addrIbuf bs ++ [commandWrite (encode .cmpu)]
  | .cmpeText cs => bufferWrites addrIbuf (cs.map asciiByte) ++ [commandWrite (encode .cmpe)]
  | .cmpuText cs => bufferWrites addrIbuf (cs.map asciiByte) ++ [commandWrite (encode .cmpu)]
  | .wait => [.wait]
  | .get => [.wait, .answer]

/-- A host program is the sequence of its statements' transactions (30_encoding.md R98). -/
def expandProgram (p : List Stmt) : List Input := p.flatMap Stmt.expand

end Sys2Proof
end

