-- ==== Sys2Proof/Config.lean ====
section
/-! DEFINITION. The constants of this hardware (00_scope.md R3, 10_state.md R35, R36) and the values
the spec leaves free. A free value is a constant without a body: nothing can evaluate it. -/

namespace Sys2Proof

/-- The configuration record: fixed at construction, never written (00_scope.md R3). -/
structure Config where
  /-- `REF[0..7]`, the Reference Secret (10_state.md R35) -/
  ref : Vector Byte 8
  /-- `FMSG`, the fixed message (10_state.md R36) -/
  fmsg : Byte
  /-- `FEXP`, the fixed exponent (10_state.md R36) -/
  fexp : Byte
  /-- `FMOD`, the fixed modulus (10_state.md R36) -/
  fmod : Byte
  /-- `TAG_EXP`, the response tag of exponentiation results (00_scope.md R3) -/
  tagExp : Byte
  /-- `TAG_CMP`, the response tag of comparison results (00_scope.md R3) -/
  tagCmp : Byte
deriving DecidableEq, Repr

/-- The values of this hardware: "infineon", 160, 5, 221, 'r', 'p' (00_scope.md R3). The character
codes are ASCII: PRESUMED by the spec itself (93_implementation_defined.md U9), unsafe, log entry 14. -/
def Config.built : Config where
  ref := #v[0x69, 0x6E, 0x66, 0x69, 0x6E, 0x65, 0x6F, 0x6E]
  fmsg := 0xA0
  fexp := 0x05
  fmod := 0xDD
  tagExp := 0x72
  tagCmp := 0x70

/-- The values a reset event leaves unspecified, one for each such register
(10_state.md R42, 93_implementation_defined.md U1). -/
structure Leftover where
  res : Byte
  base : Byte
  exp : Byte
  mod : Byte
  prod : Wide
  idx : BitVec 4
  acc : Byte
  flag : BitVec 1
  opr : BitVec 2
  result : Byte
  rtag : Byte
deriving DecidableEq, Repr, Inhabited

/-- FREE VALUE. What the unspecified registers hold after the reset event numbered by the argument:
"each is an arbitrary value of its width, fixed at the reset event" (93_implementation_defined.md U1).
Safe, log entry 5. -/
opaque Config.afterReset : Nat → Leftover

/-- FREE VALUE. The byte the core reads from an `IBUF` index the host has not written: "an arbitrary
byte, chosen once per invocation per index" (93_implementation_defined.md U3). The first argument is
the epoch (one per invocation), the second the index. Safe, log entry 6. -/
opaque Config.unwrittenByte : Nat → Nat → Byte

/-- FREE VALUE. The byte a host read of `RESULT` or `RTAG` returns while `DONE` = 0
(20_memory.md R74, 93_implementation_defined.md U2); the argument is the number of the read.
Safe, log entry 7. -/
opaque Config.undoneRead : Nat → Byte

/-- FREE VALUE. One less than the clock cycles of a core step in the state of `ST` with this number;
see `Config.cyc`. -/
opaque Config.cycBeyondFirst : BitVec 4 → Nat

/-- The open parameter `CYC : ST -> positive integer` (70_reset_and_hazards.md R247,
92_eei_decisions.md D18): any positive number for each `ST`. No rule reads it. Log entry 16. -/
def Config.cyc (st : BitVec 4) : Nat := Config.cycBeyondFirst st + 1

end Sys2Proof
end

