-- ==== Sys2Proof/Machine/State.lean ====
section
/-! DEFINITION. The state of CORE (10_state.md R20 to R42) as plain data, and the state after reset. -/

namespace Sys2Proof.Machine

/-- The sequencer state `ST`, CORE's program counter (10_state.md R29). Its numbers are in
`SeqState.code`; the values 9 to 15 "are never reached" and are left out of the type (log entry 12). -/
inductive SeqState where
  | idle
  | expChk
  | expHead
  | expMul
  | expSqr
  | expShr
  | cmpaLoop
  | cmpbLoop
  | fin
deriving DecidableEq, Repr

/-- The error code `STATUS.ECODE` (60_exceptions.md R210). Code 3 is never produced and is left out
of the type (log entry 12). -/
inductive ECode where
  | none
  | modzero
  | illcmd
deriving DecidableEq, Repr

/-- An event of the model-only trace `TRACE` (10_state.md R39). -/
inductive Event where
  | trigRise
  | mul
  | sqr
  | shr
  | cmp (i : Fin 8)
  | trigFall
deriving DecidableEq, Repr

/-- The bytes of `IBUF` by index, as (index, byte) cells: indices strictly rising, no cell equal to
what an unlisted index reads as (`Memory.wf`, in Machine/Ops.lean). -/
abbrev Memory := List Host.Cell

/-- Why the machine stops with a fault. CORE itself never stops: its two errors are recorded in
`STATUS` and the machine goes on. -/
inductive Fault where
  /-- Raised by the `EXP_MUL` and `EXP_SQR` steps when `MOD` = 0, where the remainder "is not defined"
  (00_scope.md R7). No run from reset reaches it (41_modexp.md R153). Safe: the model stops where the
  spec defines nothing. Log entry 13. -/
  | remainderByZero
deriving DecidableEq, Repr

/-- Why the machine has no meaning for a step. -/
inductive Refusal where
  /-- Raised by an arm of `exec` whose command has no meaning yet (none is left). Safe. -/
  | notModelled (mnemonic : String)
  /-- Raised by a comparator loop step whose `IDX` is 9 to 15; the spec says to refuse it
  (93_implementation_defined.md U7). No run from reset reaches it. Safe. Log entry 13. -/
  | indexOutOfRange
deriving DecidableEq, Repr

/-- The whole state: the items of 10_state.md R20, then the model's own three fields. -/
structure State where
  /-- `RES` (R21) -/
  res : Byte
  /-- `BASE` (R22) -/
  base : Byte
  /-- `EXP` (R23) -/
  exp : Byte
  /-- `MOD` (R24) -/
  mod : Byte
  /-- `PROD` (R25) -/
  prod : Wide
  /-- `IDX` (R26) -/
  idx : BitVec 4
  /-- `ACC` (R27) -/
  acc : Byte
  /-- `FLAG` (R28): 1 = "correct so far" -/
  flag : BitVec 1
  /-- `ST` (R29) -/
  st : SeqState
  /-- `OPR` (R30): the command code of the invocation in progress -/
  opr : BitVec 2
  /-- `STATUS.DONE` (R31) -/
  done : Bool
  /-- `STATUS.ERR` (R31) -/
  err : Bool
  /-- `STATUS.ECODE` (R31) -/
  ecode : ECode
  /-- `RESULT` (R32) -/
  result : Byte
  /-- `RTAG` (R33) -/
  rtag : Byte
  /-- `IBUF[0..9]` (R34) -/
  ibuf : Memory
  /-- `REF`, `FMSG`, `FEXP`, `FMOD` (R35, R36) and the two tags (00_scope.md R3): constants -/
  cfg : Config
  /-- `TRIG` (R37): true = asserted -/
  trig : Bool
  /-- `TRACE` (R39), oldest event first; model-only -/
  trace : List Event
  /-- `IBUFW[0..9]` (R40); model-only -/
  ibufw : BitVec 10
  /-- the model's own: the entries of the total order still to come (log entry 1) -/
  inputs : List Input
  /-- the model's own: what the host's reads returned, oldest first (log entry 9) -/
  reads : List (HostAddr × Byte)
  /-- the model's own: how often the contents of `IBUF` have become unspecified (log entries 5, 6) -/
  epoch : Nat
deriving DecidableEq, Repr

/-- The state after reset (10_state.md R42). Registers R42 leaves unspecified hold zero: DESIGN CHOICE,
unsafe, log entry 4. -/
def State.reset : State where
  res := 0
  base := 0
  exp := 0
  mod := 0
  prod := 0
  idx := 0
  acc := 0
  flag := 0
  st := .idle
  opr := 0
  done := false
  err := false
  ecode := .none
  result := 0
  rtag := 0
  ibuf := []
  cfg := Config.built
  trig := false
  trace := []
  ibufw := 0
  inputs := []
  reads := []
  epoch := 0

end Sys2Proof.Machine
end

