-- ==== Sys2Proof/Machine/Flags.lean ====
section
/-! DEFINITION. The numbers of `ST` and `ECODE`, the `STATUS` byte and its fields, and the one
condition flag, `FLAG`. -/

namespace Sys2Proof.Machine

/-- The number of a sequencer state (10_state.md R29). -/
def SeqState.code : SeqState → BitVec 4
  | .idle => 0
  | .expChk => 1
  | .expHead => 2
  | .expMul => 3
  | .expSqr => 4
  | .expShr => 5
  | .cmpaLoop => 6
  | .cmpbLoop => 7
  | .fin => 8

/-- The number of an error code (60_exceptions.md R210). -/
def ECode.code : ECode → BitVec 2
  | .none => 0
  | .modzero => 1
  | .illcmd => 2

/-- `STATUS.BUSY` is not stored: it is `ST != IDLE` (10_state.md R31). -/
def State.busy (s : State) : Bool := decide (s.st ≠ .idle)

/-- The byte the host reads from `STATUS`: 0b000, then `ECODE`, `ERR`, `DONE`, `BUSY`
(30_encoding.md R97). -/
def State.statusByte (s : State) : Byte :=
  (0#3 ++ s.ecode.code ++ BitVec.ofBool s.err ++ BitVec.ofBool s.done ++ BitVec.ofBool s.busy : BitVec 8)

/-- Bit 0 of a `STATUS` byte, `BUSY` (10_state.md R31). -/
def statusBusy (v : Byte) : Bool := v.getLsbD 0

/-- Bit 1 of a `STATUS` byte, `DONE` (10_state.md R31). -/
def statusDone (v : Byte) : Bool := v.getLsbD 1

/-- `FLAG` = 1, "correct so far" (10_state.md R28). -/
def flagCorrect : BitVec 1 := 1

/-- `FLAG` = 0, "incorrect" (10_state.md R28). -/
def flagIncorrect : BitVec 1 := 0

/-- `zext_8(FLAG)`, the result byte of Variant A (40_invocation.md R124). -/
def flagByte (f : BitVec 1) : Byte := f.setWidth 8

end Sys2Proof.Machine
end

