-- ==== Sys2Proof/Machine/Ops.lean ====
section
/-! DEFINITION. Named operations over the state: the `IBUF` memory, the trace, the window (`TRIG`),
recording an error and leaving the error state. -/

namespace Sys2Proof.Machine

/-- What an unlisted index of the `IBUF` memory reads as. The core sees it only through
`State.coreByte`, which replaces an unwritten byte by a free value. DESIGN CHOICE, unsafe, log entry 8. -/
def Memory.unlisted : Byte := 0x00

/-- The byte stored at an index. -/
def Memory.read : Memory → Nat → Byte
  | [], _ => Memory.unlisted
  | (b, v) :: rest, a => if b = a then v else Memory.read rest a

/-- Put a cell in front, unless it says what an unlisted index reads as anyway. -/
def Memory.cons (a : Nat) (v : Byte) (m : Memory) : Memory :=
  if v = Memory.unlisted then m else (a, v) :: m

/-- Store a byte at an index, keeping the canonical form. -/
def Memory.write : Memory → Nat → Byte → Memory
  | [], a, v => Memory.cons a v []
  | (b, w) :: rest, a, v =>
    if a < b then Memory.cons a v ((b, w) :: rest)
    else if a = b then Memory.cons a v rest
    else (b, w) :: Memory.write rest a v

/-- The canonical form above a bound: indices at least `lo`, strictly rising, no cell equal to what an
unlisted index reads as. -/
def Memory.wfFrom : Nat → Memory → Bool
  | _, [] => true
  | lo, (b, v) :: rest => decide (lo ≤ b) && (v != Memory.unlisted) && Memory.wfFrom (b + 1) rest

/-- The canonical form of a memory. -/
def Memory.wf (m : Memory) : Bool := Memory.wfFrom 0 m

/-- Every listed index is one of `IBUF[0..9]` (10_state.md R34). -/
def Memory.inBuffer (m : Memory) : Bool := m.all (fun c => decide (c.1 < 10))

/-- `ST <- n` (00_scope.md R7). -/
def State.goto (s : State) (n : SeqState) : State := { s with st := n }

/-- `emit e`: append an event to `TRACE` (00_scope.md R7, 10_state.md R39). -/
def State.emit (s : State) (e : Event) : State := { s with trace := s.trace ++ [e] }

/-- `MemWrite(IBUF, i, 1, v)`: the byte is stored and marked as written (40_invocation.md R121). -/
def State.storeByte (s : State) (i : Nat) (v : Byte) : State :=
  { s with ibuf := s.ibuf.write i v, ibufw := s.ibufw ||| BitVec.ofNat 10 (2 ^ i) }

/-- `IBUFW[i]` = 1: the host has written `IBUF[i]` since the last reset or end of an invocation
(10_state.md R40). -/
def State.written (s : State) (i : Nat) : Bool := s.ibufw.getLsbD i

/-- `MemRead(IBUF, i, 1)`: the stored byte when it was written, an unspecified byte otherwise
(20_memory.md R67). The unspecified byte is a free value, one per epoch and index
(93_implementation_defined.md U3; log entry 6). -/
def State.coreByte (s : State) (i : Nat) : Byte :=
  if s.written i then s.ibuf.read i else Config.unwrittenByte s.epoch i

/-- `MemRead(REF, i, 1)`: always defined (20_memory.md R67). -/
def State.refByte (s : State) (i : Fin 8) : Byte := s.cfg.ref.get i

/-- Error entry, `raise <Error>(code)`: the only thing recorded is `STATUS` (60_exceptions.md R216).
Nothing is saved and control goes nowhere: CORE runs no handler. -/
def State.raise (s : State) (code : ECode) : State :=
  { s with err := true, ecode := code, done := false }

/-- Leaving the error state, and dropping an old result: what every command write made while idle does
first, whatever the byte (40_invocation.md R122, 60_exceptions.md R217). -/
def State.clearOutcome (s : State) : State :=
  { s with done := false, err := false, ecode := .none }

/-- The window opens: the command code is latched, `TRIG` rises, `TRACE` restarts
(40_invocation.md R122). -/
def State.openWindow (s : State) (op : BitVec 2) : State :=
  { s with opr := op, trig := true, trace := [.trigRise] }

/-- The window closes: `TRIG` falls, and the buffer contents are no longer specified
(40_invocation.md R124, 41_modexp.md R153, 10_state.md R34). The epoch advances, so that a later
invocation reads fresh free bytes (log entry 6). -/
def State.closeWindow (s : State) : State :=
  { s with trig := false, trace := s.trace ++ [.trigFall], ibufw := 0, epoch := s.epoch + 1 }

/-- A reset event (70_reset_and_hazards.md R240, R241): every specified field at its value of
10_state.md R42; every unspecified register at a free value fixed at this event; the constants and the
host's own records untouched. Log entry 5. -/
def State.afterRst (s : State) : State :=
  let free := Config.afterReset s.epoch
  { s with
    res := free.res, base := free.base, exp := free.exp, mod := free.mod, prod := free.prod
    idx := free.idx, acc := free.acc, flag := free.flag
    st := .idle, opr := free.opr
    done := false, err := false, ecode := .none
    result := free.result, rtag := free.rtag
    ibuf := [], trig := false, trace := [], ibufw := 0
    epoch := s.epoch + 1 }

end Sys2Proof.Machine
end

