-- ==== Sys2Proof/Machine/Invocation.lean ====
section
/-! DEFINITION. What the four commands share: the acceptance step and the end of an invocation
(40_invocation.md R122, R124). -/

namespace Sys2Proof.Machine

/-- Acceptance of a legal command with code `op`: ignored while busy; otherwise the old outcome is
cleared, the window opens and the unit is initialised, all in one step (40_invocation.md R122). -/
def State.accept (s : State) (op : BitVec 2) (init : State → State) : State :=
  if s.busy then s else init (s.clearOutcome.openWindow op)

/-- What the `FIN` step publishes as `RESULT`, by the latched command code (40_invocation.md R124). -/
def State.finalResult (s : State) : Byte :=
  match s.opr.getLsbD 1, s.opr.getLsbD 0 with
  | false, _ => s.res
  | true, false => flagByte s.flag
  | true, true => s.acc

/-- What the `FIN` step publishes as `RTAG` (40_invocation.md R124, 30_encoding.md R96). -/
def State.finalTag (s : State) : Byte :=
  match s.opr.getLsbD 1 with
  | false => s.cfg.tagExp
  | true => s.cfg.tagCmp

/-- The result, its tag and `DONE` become visible together (40_invocation.md R124). -/
def State.publish (s : State) (r tag : Byte) : State :=
  { s with result := r, rtag := tag, done := true }

/-- The `FIN` step (40_invocation.md R124). -/
def stepFin (s : State) : Host.Outcome State Fault Refusal :=
  .next (((s.publish s.finalResult s.finalTag).closeWindow).goto .idle)

end Sys2Proof.Machine
end

