-- ==== Sys2Proof/Machine/Compare.lean ====
section
/-! DEFINITION. The comparators: the commands `CMPE` and `CMPU` and the steps of 42_compare.md R182
to R184. -/

namespace Sys2Proof.Machine

/-- Comparator initialisation for Variant A (42_compare.md R182). -/
def State.startEarlyExit (s : State) : State :=
  { s with idx := 0, flag := flagCorrect, st := .cmpaLoop }

/-- Comparator initialisation for Variant B (42_compare.md R182). -/
def State.startUniform (s : State) : State :=
  { s with idx := 0, acc := 0x00, st := .cmpbLoop }

/-- `CMPE` (42_compare.md R180): acceptance; no buffer byte is read here. -/
def execCmpe (s : State) : Host.Outcome State Fault Refusal :=
  .next (s.accept 0b10 State.startEarlyExit)

/-- `CMPU` (42_compare.md R181): acceptance; no buffer byte is read here. -/
def execCmpu (s : State) : Host.Outcome State Fault Refusal :=
  .next (s.accept 0b11 State.startUniform)

/-- `FLAG <- 0` (42_compare.md R183). -/
def State.markIncorrect (s : State) : State := { s with flag := flagIncorrect }

/-- `IDX <- IDX + 1` (42_compare.md R183, R184). -/
def State.nextIndex (s : State) : State := { s with idx := s.idx + 1 }

/-- `ACC <- ACC | (r ^ a)` (42_compare.md R184). -/
def State.accumulate (s : State) (r a : Byte) : State := { s with acc := s.acc ||| (r ^^^ a) }

/-- `CMPA_LOOP` at an index below 8 (42_compare.md R183): the branch on the byte inequality. -/
def State.compareA (s : State) (i : Fin 8) : State :=
  if s.coreByte i.val ≠ s.refByte i then ((s.emit (.cmp i)).markIncorrect).goto .fin
  else ((s.emit (.cmp i)).nextIndex).goto .cmpaLoop

/-- `CMPB_LOOP` at an index below 8 (42_compare.md R184): no branch on a data byte. -/
def State.compareB (s : State) (i : Fin 8) : State :=
  (((s.emit (.cmp i)).accumulate (s.refByte i) (s.coreByte i.val)).nextIndex).goto .cmpbLoop

/-- `CMPA_LOOP` (42_compare.md R183). `IDX` 9 to 15, which no run reaches, is refused
(93_implementation_defined.md U7). -/
def stepCmpaLoop (s : State) : Host.Outcome State Fault Refusal :=
  if s.idx = 8 then .next (s.goto .fin)
  else if h : s.idx.toNat < 8 then .next (s.compareA ⟨s.idx.toNat, h⟩)
  else .refused .indexOutOfRange

/-- `CMPB_LOOP` (42_compare.md R184). `IDX` 9 to 15, which no run reaches, is refused
(93_implementation_defined.md U7). -/
def stepCmpbLoop (s : State) : Host.Outcome State Fault Refusal :=
  if s.idx = 8 then .next (s.goto .fin)
  else if h : s.idx.toNat < 8 then .next (s.compareB ⟨s.idx.toNat, h⟩)
  else .refused .indexOutOfRange

end Sys2Proof.Machine
end

