-- ==== Sys2Proof/Machine/Operands.lean ====
section
/-! DEFINITION. Operand assembly (30_encoding.md R93 to R95) and the arithmetic primitives of
00_scope.md R7. Every value is unsigned. -/

namespace Sys2Proof.Machine

/-- `zext_16` of a byte (00_scope.md R7). -/
def zext16 (b : Byte) : Wide := b.setWidth 16

/-- The exact 16-bit product of two bytes: the operands are widened first, so nothing wraps
(00_scope.md R7, 41_modexp.md R158 (a)). -/
def product (a b : Byte) : Wide := zext16 a * zext16 b

/-- `(p mod zext_16(n))[7:0]`, for `n` ≥ 1 (41_modexp.md R155, R158 (b)). Its callers test `n` first. -/
def remainder (p : Wide) (n : Byte) : Byte := (p % zext16 n).extractLsb' 0 8

/-- Logical right shift by one, zero entering at bit 7 (00_scope.md R7, 41_modexp.md R157). -/
def shiftRightOne (e : Byte) : Byte := e >>> 1

/-- The operands of an exponentiation. -/
structure ExpOperands where
  msg : Byte
  ex : Byte
  md : Byte
deriving DecidableEq, Repr

/-- The operands of `EXPF`: the three constants; no buffer byte is read (30_encoding.md R95). -/
def fixedOperands (s : State) : ExpOperands :=
  { msg := s.cfg.fmsg, ex := s.cfg.fexp, md := s.cfg.fmod }

/-- The operands of `EXPV`: message, exponent, modulus = `IBUF[0]`, `IBUF[1]`, `IBUF[2]`, each taken
whole (30_encoding.md R93). -/
def bufferOperands (s : State) : ExpOperands :=
  { msg := s.coreByte 0, ex := s.coreByte 1, md := s.coreByte 2 }

end Sys2Proof.Machine
end

