-- ==== Sys2Proof/Machine/Modexp.lean ====
section
/-! DEFINITION. The exponentiation engine: the commands `EXPF` and `EXPV` and the steps of
41_modexp.md R152 to R157. -/

namespace Sys2Proof.Machine

/-- Engine initialisation (41_modexp.md R152): `RES` = 1, the operands loaded, the message not
reduced. -/
def State.loadEngine (s : State) (o : ExpOperands) : State :=
  { s with res := 0x01, base := o.msg, exp := o.ex, mod := o.md, st := .expChk }

/-- `EXPF` (41_modexp.md R150): acceptance with the constant operands. -/
def execExpf (s : State) : Host.Outcome State Fault Refusal :=
  .next (s.accept 0b00 (fun t => t.loadEngine (fixedOperands t)))

/-- `EXPV` (41_modexp.md R151): acceptance with the operands of the input buffer. -/
def execExpv (s : State) : Host.Outcome State Fault Refusal :=
  .next (s.accept 0b01 (fun t => t.loadEngine (bufferOperands t)))

/-- `EXP_CHK` (41_modexp.md R153): a zero modulus closes the window and records `MODZERO`. -/
def stepExpChk (s : State) : Host.Outcome State Fault Refusal :=
  if s.mod = 0 then .next ((s.closeWindow.raise .modzero).goto .idle)
  else .next (s.goto .expHead)

/-- `EXP_HEAD` (41_modexp.md R154): the loop test and the bit test. -/
def stepExpHead (s : State) : Host.Outcome State Fault Refusal :=
  if s.exp = 0 then .next (s.goto .fin)
  else if s.exp.getLsbD 0 then .next (s.goto .expMul)
  else .next (s.goto .expSqr)

/-- The registers a multiply step writes (41_modexp.md R155). -/
def State.multiply (s : State) : State :=
  { s with prod := product s.res s.base, res := remainder (product s.res s.base) s.mod }

/-- `EXP_MUL` (41_modexp.md R155). With `MOD` = 0, which no run reaches, the remainder is not defined. -/
def stepExpMul (s : State) : Host.Outcome State Fault Refusal :=
  if s.mod = 0 then .fault .remainderByZero
  else .next ((s.multiply.emit .mul).goto .expSqr)

/-- The registers a square step writes (41_modexp.md R156). -/
def State.square (s : State) : State :=
  { s with prod := product s.base s.base, base := remainder (product s.base s.base) s.mod }

/-- `EXP_SQR` (41_modexp.md R156). With `MOD` = 0, which no run reaches, the remainder is not defined. -/
def stepExpSqr (s : State) : Host.Outcome State Fault Refusal :=
  if s.mod = 0 then .fault .remainderByZero
  else .next ((s.square.emit .sqr).goto .expShr)

/-- The register a shift step writes (41_modexp.md R157). -/
def State.shiftExp (s : State) : State := { s with exp := shiftRightOne s.exp }

/-- `EXP_SHR` (41_modexp.md R157). -/
def stepExpShr (s : State) : Host.Outcome State Fault Refusal :=
  .next ((s.shiftExp.emit .shr).goto .expHead)

end Sys2Proof.Machine
end

