-- ==== Sys2Proof/Machine/Dispatch.lean ====
section
/-! DEFINITION. One arm per command: the command's own step, which is its acceptance transaction
(40_invocation.md R122; log entry 2). -/

namespace Sys2Proof.Machine

def exec (i : Instr) (s : State) : Host.Outcome State Fault Refusal :=
  match i with
  | .expf => Sys2Proof.Machine.execExpf s
  | .expv => Sys2Proof.Machine.execExpv s
  | .cmpe => Sys2Proof.Machine.execCmpe s
  | .cmpu => Sys2Proof.Machine.execCmpu s

end Sys2Proof.Machine
end

