-- ==== Sys2Proof/Machine/Sequencer.lean ====
section
/-! DEFINITION. The core's step relation (40_invocation.md R126). -/

namespace Sys2Proof.Machine

/-- The one core step that `ST` enables; with `ST` = `IDLE` the core has no step and the state stays
(40_invocation.md R126; log entry 10). -/
def coreStep (s : State) : Host.Outcome State Fault Refusal :=
  match s.st with
  | .idle => .next s
  | .expChk => stepExpChk s
  | .expHead => stepExpHead s
  | .expMul => stepExpMul s
  | .expSqr => stepExpSqr s
  | .expShr => stepExpShr s
  | .cmpaLoop => stepCmpaLoop s
  | .cmpbLoop => stepCmpbLoop s
  | .fin => stepFin s

end Sys2Proof.Machine
end

