-- ==== Sys2Proof/Machine/Port.lean ====
section
/-! DEFINITION. The host register port (20_memory.md R61, 40_invocation.md R120 to R123) and what each
entry of the total order does. -/

namespace Sys2Proof.Machine

/-- A write of `c` to `CMD` (40_invocation.md R122). The tests come in the order busy, illegal,
dispatch (60_exceptions.md R215); a legal byte is the command's own meaning, which ignores it while
busy. -/
def writeCommand (s : State) (c : Byte) : Host.Outcome State Fault Refusal :=
  if s.busy then .next s
  else
    match decode c with
    | .ok i => exec i s
    | .error .zeroFieldSet => .next (s.clearOutcome.raise .illcmd)

/-- The `IBUF` index a host address stands for, if it is one of 0x10 to 0x19 (20_memory.md R61). -/
def bufferIndex (a : HostAddr) : Option Nat :=
  if 0x10 ≤ a.toNat ∧ a.toNat ≤ 0x19 then some (a.toNat - 0x10) else none

/-- A write to `IBUF[i]`: stored while idle, ignored while busy (40_invocation.md R121). -/
def State.writeBuffer (s : State) (i : Nat) (v : Byte) : State :=
  if s.busy then s else s.storeByte i v

/-- `HostWrite(a, v)`: `CMD`, the ten buffer addresses; every other write is ignored
(20_memory.md R61, R64, R65). -/
def hostWrite (s : State) (a : HostAddr) (v : Byte) : Host.Outcome State Fault Refusal :=
  if a = addrCmd then writeCommand s v
  else
    match bufferIndex a with
    | some i => .next (s.writeBuffer i v)
    | none => .next s

/-- What a host read of address `a` returns (20_memory.md R61): `RESULT` and `RTAG` only while
`DONE` = 1, a free byte otherwise (R74; log entry 7); 0x00 from `CMD`, `IBUF` and the reserved
addresses. -/
def State.portByte (s : State) (a : HostAddr) : Byte :=
  if a = addrStatus then s.statusByte
  else if a = addrResult then (if s.done then s.result else Config.undoneRead s.reads.length)
  else if a = addrRtag then (if s.done then s.rtag else Config.undoneRead s.reads.length)
  else 0x00

/-- `HostRead(a)`: the host receives the byte; no state of CORE changes (20_memory.md R66,
40_invocation.md R123). -/
def State.hostRead (s : State) (a : HostAddr) : State :=
  { s with reads := s.reads ++ [(a, s.portByte a)] }

/-- The host puts entries in front of those still to come. -/
def State.prepend (s : State) (xs : List Input) : State := { s with inputs := xs ++ s.inputs }

/-- `WAIT`: read `STATUS`; while it shows `BUSY`, give the core a turn and poll again
(30_encoding.md R99). DESIGN CHOICE in how often the host polls: one core step between two polls
(log entry 11). -/
def hostWait (s : State) : State :=
  let t := s.hostRead addrStatus
  if statusBusy s.statusByte then t.prepend [.core, .wait] else t

/-- The tail of `GET`: read `STATUS`; if it shows `DONE`, read the tag and then the result
(30_encoding.md R99). -/
def hostAnswer (s : State) : State :=
  let t := s.hostRead addrStatus
  if statusDone s.statusByte then t.prepend [.rd addrRtag, .rd addrResult] else t

/-- What one entry of the total order does; the entry has been taken off `inputs` already. -/
def takeInput (x : Input) (s : State) : Host.Outcome State Fault Refusal :=
  match x with
  | .wr a v => hostWrite s a v
  | .rd a => .next (s.hostRead a)
  | .rst => .next s.afterRst
  | .core => coreStep s
  | .wait => .next (hostWait s)
  | .answer => .next (hostAnswer s)

/-- A host program is put behind the entries still to come (30_encoding.md R98). DESIGN CHOICE: no turn of
the core stands between two of its transactions, where 20_memory.md R69 allows zero or more core steps
(log entry 21). -/
def State.withProgram (s : State) (p : List Stmt) : State :=
  { s with inputs := s.inputs ++ expandProgram p }

end Sys2Proof.Machine
end

