-- ==== Sys2Proof/Machine/Step.lean ====
section
/-! DEFINITION. One step of the machine: the next entry of the total order of host transactions, core
steps and resets (20_memory.md R69). -/

namespace Sys2Proof.Machine

/-- The next entry is consumed and done; with no entry left the core runs on alone, and rests when it
is idle (70_reset_and_hazards.md R246; log entries 1 and 10). -/
def step (s : State) : Host.Outcome State Fault Refusal :=
  match s.inputs with
  | [] => coreStep s
  | x :: rest => takeInput x { s with inputs := rest }

/-- The state whose next entry is the write of the given command byte to `CMD`, which is where CORE
takes its commands from (10_state.md R38; log entry 3). -/
def State.withFetchWord (s : State) (nbits w : Nat) : State :=
  s.prepend [commandWrite (tableByte nbits w)]

end Sys2Proof.Machine
end

