-- ==== Sys2Proof/Machine/Outcome.lean ====
section
/-! DEFINITION. The operation level (00_scope.md R5): the functions the step rules add up to
(41_modexp.md R159, R160, 42_compare.md R185, R186), the step counts (40_invocation.md R127) and the
outcome of an invocation (40_invocation.md R130). No step of the machine calls these. -/

namespace Sys2Proof.Machine

/-- `bitlen(e)`: the number of bits up to and including the highest 1 bit (00_scope.md R7). -/
def bitlen (e : Byte) : Nat :=
  (List.range 8).foldl (fun n i => if e.getLsbD i then i + 1 else n) 0

/-- `popcount(e)`: the number of 1 bits (00_scope.md R7). -/
def popcount (e : Byte) : Nat := ((List.range 8).filter (fun i => e.getLsbD i)).length

/-- The loop of `ModExp` (41_modexp.md R159) on exact integers; the first argument bounds the
iterations, of which an 8-bit exponent needs at most 8. -/
def modExpLoop : Nat → Nat → Nat → Nat → Nat → Nat
  | 0, res, _, _, _ => res
  | k + 1, res, base, e, n =>
    if e = 0 then res
    else modExpLoop k (if e % 2 = 1 then res * base % n else res) (base * base % n) (e / 2) n

/-- `ModExp(m, e, n)` for `n` ≥ 1 (41_modexp.md R159). For `e` = 0 it is 1 whatever `n` is, `n` = 1
included (R161, 90_conflicts.md C1; log entry 17). -/
def modExp (m e n : Byte) : Byte := BitVec.ofNat 8 (modExpLoop 8 1 m.toNat e.toNat n.toNat)

/-- The events of one exponent bit: `Mul` for a 1 bit, then `Sqr`, then `Shr` (41_modexp.md R160). -/
def bitEvents (e : Byte) (i : Nat) : List Event :=
  (if e.getLsbD i then [Event.mul] else []) ++ [.sqr, .shr]

/-- `ExpTrace(e)` (41_modexp.md R160). -/
def expTrace (e : Byte) : List Event :=
  [.trigRise] ++ (List.range (bitlen e)).flatMap (bitEvents e) ++ [.trigFall]

/-- The number of core steps of an exponentiation with a modulus that is not 0
(40_invocation.md R127). -/
def expSteps (e : Byte) : Nat := 3 + 3 * bitlen e + popcount e

/-- The Comparison Attempt `x[0..7]` as the core reads it (30_encoding.md R94). -/
def State.attempt (s : State) : Vector Byte 8 := Vector.ofFn (fun i => s.coreByte i.val)

/-- The least index where the attempt and the reference differ (42_compare.md R186). -/
def firstMismatch (ref x : Vector Byte 8) : Option (Fin 8) :=
  (List.finRange 8).find? (fun i => x.get i != ref.get i)

/-- `CmpA(x)` (42_compare.md R185). -/
def cmpA (ref x : Vector Byte 8) : Byte := if x = ref then 0x01 else 0x00

/-- `CmpB(x)` (42_compare.md R185). -/
def cmpB (ref x : Vector Byte 8) : Byte :=
  (List.finRange 8).foldl (fun acc i => acc ||| (x.get i ^^^ ref.get i)) 0x00

/-- The trace of a comparison that examined the first `n` indices (42_compare.md R186). -/
def cmpTrace (n : Nat) : List Event :=
  [.trigRise] ++ ((List.finRange 8).take n).map Event.cmp ++ [.trigFall]

/-- How many indices Variant A examines: one more than the first mismatch, or 8 (42_compare.md R186). -/
def cmpAAccesses (ref x : Vector Byte 8) : Nat :=
  match firstMismatch ref x with
  | some k => k.val + 1
  | none => 8

/-- `CmpATrace(x)` (42_compare.md R186). -/
def cmpATrace (ref x : Vector Byte 8) : List Event := cmpTrace (cmpAAccesses ref x)

/-- `CmpBTrace` (42_compare.md R186). -/
def cmpBTrace : List Event := cmpTrace 8

/-- The number of core steps of `CMPE` (40_invocation.md R127). -/
def cmpASteps (ref x : Vector Byte 8) : Nat :=
  match firstMismatch ref x with
  | some k => k.val + 2
  | none => 10

/-- The number of core steps of `CMPU` (40_invocation.md R127). -/
def cmpBSteps : Nat := 10

/-- How an invocation ended (40_invocation.md R130). -/
inductive Kind where
  | done
  | error
  | illegal
deriving DecidableEq, Repr

/-- The outcome record (40_invocation.md R130); `none` stands for "not valid". -/
structure Report where
  kind : Kind
  result : Option Byte
  rtag : Option Byte
  status : Byte
  trace : List Event
deriving DecidableEq, Repr

/-- The outcome of an exponentiation with these operands (40_invocation.md R130). -/
def expReport (cfg : Config) (o : ExpOperands) : Report :=
  if o.md = 0 then
    { kind := .error, result := none, rtag := none, status := 0x0C, trace := [.trigRise, .trigFall] }
  else
    { kind := .done, result := some (modExp o.msg o.ex o.md), rtag := some cfg.tagExp, status := 0x02
      trace := expTrace o.ex }

/-- The outcome of a comparison with this result and trace (40_invocation.md R130). -/
def cmpReport (cfg : Config) (r : Byte) (tr : List Event) : Report :=
  { kind := .done, result := some r, rtag := some cfg.tagCmp, status := 0x02, trace := tr }

/-- The outcome table (40_invocation.md R130): what writing `c` to `CMD` in the idle state `s` leads
to. -/
def report (s : State) (c : Byte) : Report :=
  match decode c with
  | .ok .expf => expReport s.cfg (fixedOperands s)
  | .ok .expv => expReport s.cfg (bufferOperands s)
  | .ok .cmpe => cmpReport s.cfg (cmpA s.cfg.ref s.attempt) (cmpATrace s.cfg.ref s.attempt)
  | .ok .cmpu => cmpReport s.cfg (cmpB s.cfg.ref s.attempt) cmpBTrace
  | .error .zeroFieldSet =>
    { kind := .illegal, result := none, rtag := none, status := 0x14, trace := s.trace }

/-- The number of core steps after an exponentiation's acceptance (40_invocation.md R127). -/
def expStepsOf (o : ExpOperands) : Nat := if o.md = 0 then 1 else expSteps o.ex

/-- The number of core steps after writing `c` to `CMD` in the idle state `s` (40_invocation.md R127);
an illegal byte begins no invocation. -/
def invocationSteps (s : State) (c : Byte) : Nat :=
  match decode c with
  | .ok .expf => expStepsOf (fixedOperands s)
  | .ok .expv => expStepsOf (bufferOperands s)
  | .ok .cmpe => cmpASteps s.cfg.ref s.attempt
  | .ok .cmpu => cmpBSteps
  | .error .zeroFieldSet => 0

/-- The outcome an idle state shows (40_invocation.md R129, R130). With `DONE` = 0 and `ERR` = 0 (after
reset, or after an invocation that a reset abandoned) the spec gives no kind; `error` stands there, with
nothing valid: DESIGN CHOICE, log entry 22. -/
def State.shown (s : State) : Report :=
  { kind := if s.done then .done else if s.ecode = .illcmd then .illegal else .error
    result := if s.done then some s.result else none
    rtag := if s.done then some s.rtag else none
    status := s.statusByte
    trace := s.trace }

end Sys2Proof.Machine
end

