-- ==== Sys2Proof/Safety.lean ====
section
/-! DEFINITION. What counts as a good state and a good host, what the outside sees, and the sequences
of core steps claims speak of. -/

namespace Sys2Proof.Machine

/-- The events that are secret-dependent work (10_state.md R39, 40_invocation.md R125 (c)). -/
def Event.isWork : Event → Bool
  | .trigRise => false
  | .mul => true
  | .sqr => true
  | .shr => true
  | .cmp _ => true
  | .trigFall => false

/-- The trace of a running invocation: one rise, then work only (40_invocation.md R125 (b)). -/
def traceOpen : List Event → Bool
  | .trigRise :: es => es.all Event.isWork
  | _ => false

/-- Work only, then one fall. -/
def endsWithFall : List Event → Bool
  | [] => false
  | e :: es => if e = .trigFall then es.isEmpty else e.isWork && endsWithFall es

/-- The trace between invocations: empty after reset, otherwise one rise, work only, one fall
(40_invocation.md R125 (b)). -/
def traceClosed : List Event → Bool
  | [] => true
  | e :: es => e = .trigRise && endsWithFall es

/-- `TRIG` = 1 exactly when `ST != IDLE` (40_invocation.md R125 (a)). -/
abbrev State.bracketOk (s : State) : Prop := s.trig = s.busy

/-- At most one of `BUSY`, `DONE`, `ERR` is 1 (10_state.md R31). -/
abbrev State.statusOk (s : State) : Prop :=
  (s.busy && s.done) = false ∧ (s.busy && s.err) = false ∧ (s.done && s.err) = false

/-- `ECODE` is 0 exactly when `ERR` is 0 (10_state.md R31, 60_exceptions.md R210). -/
abbrev State.ecodeOk (s : State) : Prop := s.err = (s.ecode != .none)

/-- The latched command code belongs to the unit that is running (10_state.md R30,
40_invocation.md R126). -/
abbrev State.oprOk (s : State) : Prop :=
  (s.st ∈ [SeqState.expChk, .expHead, .expMul, .expSqr, .expShr] → s.opr = 0 ∨ s.opr = 1) ∧
  (s.st = .cmpaLoop → s.opr = 2) ∧ (s.st = .cmpbLoop → s.opr = 3)

/-- Past the check step the modulus is at least 1 (10_state.md R24). -/
abbrev State.modulusOk (s : State) : Prop :=
  s.st ∈ [SeqState.expHead, .expMul, .expSqr, .expShr] → s.mod ≠ 0

/-- A running comparator's index is at most 8, and Variant A's flag still says "correct"
(10_state.md R26, R28). -/
abbrev State.comparatorOk (s : State) : Prop :=
  (s.st = .cmpaLoop → s.idx.toNat ≤ 8 ∧ s.flag = flagCorrect) ∧
  (s.st = .cmpbLoop → s.idx.toNat ≤ 8)

/-- The buffer is in canonical form and holds indices 0 to 9 only (10_state.md R34). -/
abbrev State.bufferOk (s : State) : Prop := s.ibuf.wf = true ∧ s.ibuf.inBuffer = true

/-- The trace has the shape of the trigger bracket (40_invocation.md R125 (b)). -/
abbrev State.traceOk (s : State) : Prop :=
  (if s.busy then traceOpen s.trace else traceClosed s.trace) = true

/-- The invariant of the machine: it holds at reset and every step keeps it. -/
structure State.Inv (s : State) : Prop where
  bracket : s.bracketOk
  status : s.statusOk
  ecode : s.ecodeOk
  opr : s.oprOk
  modulus : s.modulusOk
  comparator : s.comparatorOk
  buffer : s.bufferOk
  trace : s.traceOk

/-- The same state with another Reference Secret, to say what does not depend on it. -/
def State.withSecret (s : State) (r : Vector Byte 8) : State := { s with cfg := { s.cfg with ref := r } }

/-- What the outside can see: what its reads returned and the level of `TRIG` (00_scope.md R11). -/
def State.seen (s : State) : List (HostAddr × Byte) × Bool := (s.reads, s.trig)

/-- The `IBUF` indices a command reads (30_encoding.md R91, R93 to R95). -/
def readsBelow : Instr → Nat
  | .expf => 0
  | .expv => 3
  | .cmpe => 8
  | .cmpu => 8

/-- Duty H1: every byte the command reads has been written since the last invocation ended
(70_reset_and_hazards.md R243). -/
def bufferReady (i : Instr) (s : State) : Bool := (List.range (readsBelow i)).all (fun k => s.written k)

/-- Duty H5: the modulus given to `EXPV` is not 0 (70_reset_and_hazards.md R243). -/
def modulusGiven (i : Instr) (s : State) : Bool :=
  match i with
  | .expv => s.coreByte 2 != 0
  | .expf | .cmpe | .cmpu => true

/-- The duties H1, H2, H4, H5 and H7 of 70_reset_and_hazards.md R243, for one transaction: no `CMD` or
`IBUF` write while busy, only legal command bytes with their buffer bytes ready and the modulus not 0,
no read of `RESULT` or `RTAG` without `DONE`. -/
def dutiful (x : Input) (s : State) : Bool :=
  match x with
  | .wr a v =>
    if a = addrCmd then
      !s.busy && (match decode v with
        | .ok i => bufferReady i s && modulusGiven i s
        | .error _ => false)
    else !(bufferIndex a).isSome || !s.busy
  | .rd a => !(a = addrResult || a = addrRtag) || s.done
  | .rst | .core | .wait | .answer => true

/-- The values of `ST` before each of the next `k` core steps. -/
def statesOver : Nat → State → List SeqState
  | 0, _ => []
  | k + 1, s =>
    match coreStep s with
    | .next t => s.st :: statesOver k t
    | .fault _ => [s.st]
    | .refused _ => [s.st]

/-- The clock cycles of the next `k` core steps under the open parameter `CYC`
(70_reset_and_hazards.md R247). -/
def cyclesOver (k : Nat) (s : State) : Nat := ((statesOver k s).map (fun st => Config.cyc st.code)).sum

/-- `k` steps of the machine from a state. -/
abbrev runSteps (k : Nat) (s : State) : Host.Outcome State Fault Refusal := Sys2Proof.core.run k s

end Sys2Proof.Machine
end

