-- ==== Sys2Proof/Certificates/Slice0/Obligations.lean ====
section
/-! DEFINITION. The statements about the model, for the provers. Each docstring names the rules of
spec/ it comes from. `s.inputs` is the model's rendering of the total order of 20_memory.md R69: the
entries still to come (log entry 1). -/

open Sys2Proof Sys2Proof.Machine

/-! ### Encoding -/

/-- A few bytes of 30_encoding.md R91 and R92, written out. -/
def Obligations.CommandBytesDecodeAsTheOpcodeMapSays : Prop :=
  decode 0b00000000#8 = .ok .expf ∧ decode 0b00000001#8 = .ok .expv ∧
  decode 0b00000010#8 = .ok .cmpe ∧ decode 0b00000011#8 = .ok .cmpu ∧
  decode 0b00000100#8 = .error .zeroFieldSet ∧ decode 0b00010011#8 = .error .zeroFieldSet ∧
  decode 0b10000000#8 = .error .zeroFieldSet ∧ decode 0b11111111#8 = .error .zeroFieldSet

/-- 30_encoding.md R100: the decoder is total and each byte gets exactly one of five verdicts, by bits
7:2 and then bits 1:0. (That no state enters is the type of `decode`; that `BUSY` comes first is
`CommandWriteFollowsTheAcceptanceRule`.) -/
def Obligations.EveryByteGetsOneVerdict : Prop :=
  ∀ c : Byte,
    (c.extractLsb' 2 6 ≠ 0 → decode c = .error .zeroFieldSet) ∧
    (c.extractLsb' 2 6 = 0 →
      (c.extractLsb' 0 2 = 0b00#2 → decode c = .ok .expf) ∧
      (c.extractLsb' 0 2 = 0b01#2 → decode c = .ok .expv) ∧
      (c.extractLsb' 0 2 = 0b10#2 → decode c = .ok .cmpe) ∧
      (c.extractLsb' 0 2 = 0b11#2 → decode c = .ok .cmpu))

/-- Decode and encode agree in both directions (30_encoding.md R91). -/
def Obligations.EncodeAndDecodeAgree : Prop :=
  (∀ i : Instr, i.wf = true → decode (encode i) = .ok i) ∧
  (∀ (c : Byte) (i : Instr), decode c = .ok i → encode i = c)

/-! ### A step runs the decoded command -/

/-- A command byte at the head of the order, written to `CMD`: the step is `exec` of the decoded command
on the state without that entry, busy or not. -/
def Obligations.StepRunsTheDecodedCommand : Prop :=
  ∀ (s : State) (c : Byte) (i : Instr) (rest : List Input),
    s.inputs = .wr 0x00 c :: rest → decode c = .ok i → step s = exec i { s with inputs := rest }

/-- The host's fetch aid: the very next step runs the command of the table word. -/
def Obligations.FetchWordIsRunNext : Prop :=
  ∀ (s : State) (i : Instr) (w : Nat), w < 256 → decodeTableWord 8 w = some i →
    step (s.withFetchWord 8 w) = exec i s

/-! ### Command acceptance -/

/-- 40_invocation.md R122 with 41_modexp.md R152 and 42_compare.md R182: the whole effect of a write to
`CMD`, in every state and for every byte. -/
def Obligations.CommandWriteFollowsTheAcceptanceRule : Prop :=
  ∀ (s : State) (c : Byte) (rest : List Input), s.inputs = .wr 0x00 c :: rest →
    (s.st ≠ .idle → step s = .next { s with inputs := rest }) ∧
    (s.st = .idle → c.extractLsb' 2 6 ≠ 0 →
      step s = .next { s with inputs := rest, done := false, err := true, ecode := .illcmd }) ∧
    (s.st = .idle → c = 0x00 →
      ∃ t, step s = .next t ∧ t.statusByte = 0x01 ∧
        t = { s with
          inputs := rest, done := false, err := false, ecode := .none, opr := 0b00, trig := true
          trace := [.trigRise], res := 0x01, base := s.cfg.fmsg, exp := s.cfg.fexp, mod := s.cfg.fmod
          st := .expChk }) ∧
    (s.st = .idle → c = 0x01 →
      ∃ t, step s = .next t ∧ t.statusByte = 0x01 ∧
        t = { s with
          inputs := rest, done := false, err := false, ecode := .none, opr := 0b01, trig := true
          trace := [.trigRise], res := 0x01, base := s.coreByte 0, exp := s.coreByte 1
          mod := s.coreByte 2, st := .expChk }) ∧
    (s.st = .idle → c = 0x02 →
      ∃ t, step s = .next t ∧ t.statusByte = 0x01 ∧
        t = { s with
          inputs := rest, done := false, err := false, ecode := .none, opr := 0b10, trig := true
          trace := [.trigRise], idx := 0, flag := 1, st := .cmpaLoop }) ∧
    (s.st = .idle → c = 0x03 →
      ∃ t, step s = .next t ∧ t.statusByte = 0x01 ∧
        t = { s with
          inputs := rest, done := false, err := false, ecode := .none, opr := 0b11, trig := true
          trace := [.trigRise], idx := 0, acc := 0x00, st := .cmpbLoop })

/-- The engine's commands complete their acceptance in every idle state, with the operands of
41_modexp.md R152; nothing else changes. -/
def Obligations.EngineCommandsLoadTheirOperands : Prop :=
  ∀ s : State, s.st = .idle →
    exec .expf s = .next { s with
      done := false, err := false, ecode := .none, opr := 0b00, trig := true, trace := [.trigRise]
      res := 0x01, base := s.cfg.fmsg, exp := s.cfg.fexp, mod := s.cfg.fmod, st := .expChk } ∧
    exec .expv s = .next { s with
      done := false, err := false, ecode := .none, opr := 0b01, trig := true, trace := [.trigRise]
      res := 0x01, base := s.coreByte 0, exp := s.coreByte 1, mod := s.coreByte 2, st := .expChk }

/-- The comparators' commands complete their acceptance in every idle state (42_compare.md R182);
nothing else changes. -/
def Obligations.ComparatorCommandsInitialise : Prop :=
  ∀ s : State, s.st = .idle →
    exec .cmpe s = .next { s with
      done := false, err := false, ecode := .none, opr := 0b10, trig := true, trace := [.trigRise]
      idx := 0, flag := 1, st := .cmpaLoop } ∧
    exec .cmpu s = .next { s with
      done := false, err := false, ecode := .none, opr := 0b11, trig := true, trace := [.trigRise]
      idx := 0, acc := 0x00, st := .cmpbLoop }

/-- While busy every command is turned away and changes nothing (40_invocation.md R122). -/
def Obligations.BusyCommandsAreTurnedAway : Prop :=
  ∀ (i : Instr) (s : State), s.st ≠ .idle → exec i s = .next s

/-- The frame of acceptance, for all four commands (`expf`, `expv`, `cmpe`, `cmpu`): no byte of the
buffer, no constant, no published result and nothing of the host's changes; the engine's commands leave
the comparators' registers and `PROD`, the comparators' commands leave the engine's registers, `CMPE`
leaves `ACC` and `CMPU` leaves `FLAG` (41_modexp.md R152, 42_compare.md R182). -/
def Obligations.AcceptanceFrame : Prop :=
  ∀ (i : Instr) (s t : State), exec i s = .next t →
    (∀ a : Nat, t.ibuf.read a = s.ibuf.read a ∧ t.coreByte a = s.coreByte a) ∧
    t.ibufw = s.ibufw ∧ t.cfg = s.cfg ∧ t.result = s.result ∧ t.rtag = s.rtag ∧
    t.inputs = s.inputs ∧ t.reads = s.reads ∧ t.epoch = s.epoch ∧ t.prod = s.prod ∧
    (i = .expf ∨ i = .expv → t.idx = s.idx ∧ t.acc = s.acc ∧ t.flag = s.flag) ∧
    (i = .cmpe ∨ i = .cmpu →
      t.res = s.res ∧ t.base = s.base ∧ t.exp = s.exp ∧ t.mod = s.mod) ∧
    (i = .cmpe → t.acc = s.acc) ∧ (i = .cmpu → t.flag = s.flag)

/-- 60_exceptions.md R212: `ILLCMD`. -/
def Obligations.IllegalCommandRecordsIllcmd : Prop :=
  ∀ (s : State) (c : Byte) (rest : List Input),
    s.inputs = .wr 0x00 c :: rest → s.st = .idle → 4 ≤ c.toNat →
    ∃ t, step s = .next t ∧
      t = { s with inputs := rest, done := false, err := true, ecode := .illcmd } ∧
      t.statusByte = 0x14

/-! ### The host port -/

/-- 70_reset_and_hazards.md R244, 20_memory.md R68: no host write has any effect while busy, and none
is queued. -/
def Obligations.BusyWritesAreLost : Prop :=
  ∀ (s : State) (a : HostAddr) (v : Byte) (rest : List Input),
    s.inputs = .wr a v :: rest → s.st ≠ .idle → step s = .next { s with inputs := rest }

/-- 40_invocation.md R121: a write to `IBUF[i]` stores that byte and marks it written while idle, and
does nothing while busy; every other byte and every other field is as before. The canonical form of the
buffer is the invariant of `EveryStepKeepsTheInvariant`. -/
def Obligations.BufferWriteStoresOneByte : Prop :=
  ∀ (s : State) (i : Nat) (a : HostAddr) (v : Byte) (rest : List Input),
    i < 10 → a.toNat = 0x10 + i → s.ibuf.wf = true → s.inputs = .wr a v :: rest →
    (s.st = .idle → ∃ t, step s = .next t ∧
      t.ibuf.read i = v ∧ t.written i = true ∧ t.coreByte i = v ∧
      (∀ j : Nat, j ≠ i → t.ibuf.read j = s.ibuf.read j ∧ t.written j = s.written j ∧
        t.coreByte j = s.coreByte j) ∧
      ({ t with ibuf := s.ibuf, ibufw := s.ibufw } : State) = { s with inputs := rest }) ∧
    (s.st ≠ .idle → step s = .next { s with inputs := rest })

/-- 20_memory.md R64: reserved addresses read 0x00, ignore writes and raise no error. -/
def Obligations.ReservedAddressesAreInert : Prop :=
  ∀ (s : State) (a : HostAddr) (v : Byte) (rest : List Input),
    (4 ≤ a.toNat ∧ a.toNat ≤ 0x0F) ∨ 0x1A ≤ a.toNat →
    (s.inputs = .rd a :: rest →
      step s = .next { s with inputs := rest, reads := s.reads ++ [(a, 0x00)] }) ∧
    (s.inputs = .wr a v :: rest → step s = .next { s with inputs := rest })

/-- 20_memory.md R65: the host writes `CMD` and `IBUF[0..9]` and nothing else. -/
def Obligations.HostWritesOnlyCommandAndBuffer : Prop :=
  ∀ (s : State) (a : HostAddr) (v : Byte) (rest : List Input),
    s.inputs = .wr a v :: rest → a ≠ 0x00 → (a.toNat < 0x10 ∨ 0x19 < a.toNat) →
    step s = .next { s with inputs := rest }

/-- 20_memory.md R61, R65, R66, R74, 40_invocation.md R123: what a host read returns, and that it
changes nothing of CORE. While `DONE` = 0 the byte read from `RESULT` or `RTAG` is some byte, and
nothing more is said of it. -/
def Obligations.HostReadReturnsTheMappedByte : Prop :=
  ∀ (s : State) (a : HostAddr) (rest : List Input), s.inputs = .rd a :: rest →
    ∃ v : Byte, step s = .next { s with inputs := rest, reads := s.reads ++ [(a, v)] } ∧
      (a = 0x01 → v = s.statusByte) ∧
      (a = 0x02 → s.done = true → v = s.result) ∧
      (a = 0x03 → s.done = true → v = s.rtag) ∧
      (a ≠ 0x01 → a ≠ 0x02 → a ≠ 0x03 → v = 0x00)

/-- 30_encoding.md R97: the layout of the `STATUS` byte, and the five values a host can read. -/
def Obligations.StatusReadsOneOfFiveValues : Prop :=
  ∀ (s : State) (rest : List Input), s.Inv → s.inputs = .rd 0x01 :: rest →
    ∃ v : Byte, step s = .next { s with inputs := rest, reads := s.reads ++ [(0x01, v)] } ∧
      v.getLsbD 0 = s.busy ∧ v.getLsbD 1 = s.done ∧ v.getLsbD 2 = s.err ∧
      v.extractLsb' 3 2 = s.ecode.code ∧ v.extractLsb' 5 3 = 0 ∧
      (v = 0x00 ∨ v = 0x01 ∨ v = 0x02 ∨ v = 0x0C ∨ v = 0x14)

/-! ### Reset -/

/-- 10_state.md R42 (with R35, R36): the fields whose reset value the spec gives. The character codes in
`REF` and the tags are the spec's own presumption (log entry 14). -/
def Obligations.ResetStateIsTheResetTable : Prop :=
  State.reset.st = .idle ∧ State.reset.done = false ∧ State.reset.err = false ∧
  State.reset.ecode = .none ∧ State.reset.statusByte = 0x00 ∧ State.reset.trig = false ∧
  State.reset.trace = [] ∧ (∀ i < 10, State.reset.written i = false) ∧
  State.reset.cfg.ref.toList = [0x69, 0x6E, 0x66, 0x69, 0x6E, 0x65, 0x6F, 0x6E] ∧
  State.reset.cfg.fmsg = 0xA0 ∧ State.reset.cfg.fexp = 0x05 ∧ State.reset.cfg.fmod = 0xDD ∧
  State.reset.cfg.tagExp = 0x72 ∧ State.reset.cfg.tagCmp = 0x70

/-- 70_reset_and_hazards.md R240: a reset event, busy or idle, puts every specified field at its value of
10_state.md R42 and leaves the constants alone; with `ST` = `IDLE` no core step is enabled. Of the
registers the spec leaves unspecified nothing is said (log entry 5). -/
def Obligations.ResetEventRestoresTheResetTable : Prop :=
  ∀ (s : State) (rest : List Input), s.inputs = .rst :: rest →
    ∃ t, step s = .next t ∧ t.st = .idle ∧ t.done = false ∧ t.err = false ∧ t.ecode = .none ∧
      t.statusByte = 0x00 ∧ t.trig = false ∧ t.trace = [] ∧ (∀ i, t.written i = false) ∧
      t.cfg = s.cfg ∧ t.inputs = rest ∧ t.reads = s.reads

/-! ### The steps of the core -/

/-- 20_memory.md R69, 40_invocation.md R126: with no entry left, or on the core's turn, a step is a core
step; in `IDLE` there is none and the state rests. That it rests, and does not stop, is the model's
choice (log entry 10). -/
def Obligations.CoreTurnIsOneCoreStep : Prop :=
  ∀ s : State,
    (s.inputs = [] → step s = coreStep s) ∧
    (∀ rest, s.inputs = .core :: rest → step s = coreStep { s with inputs := rest }) ∧
    (s.st = .idle → coreStep s = .next s)

/-- 41_modexp.md R153, both ways out. That the epoch advances on the error way out is the model's own
(log entry 6). -/
def Obligations.CheckStepRejectsZeroModulus : Prop :=
  ∀ s : State, s.st = .expChk →
    (s.mod = 0 → coreStep s = .next { s with
      trig := false, trace := s.trace ++ [.trigFall], ibufw := 0, err := true, ecode := .modzero
      done := false, st := .idle, epoch := s.epoch + 1 }) ∧
    (s.mod ≠ 0 → coreStep s = .next { s with st := .expHead })

/-- 41_modexp.md R154. -/
def Obligations.HeadStepTestsExponentAndBit : Prop :=
  ∀ s : State, s.st = .expHead →
    (s.exp.toNat = 0 → coreStep s = .next { s with st := .fin }) ∧
    (s.exp.toNat ≠ 0 → s.exp.toNat % 2 = 1 → coreStep s = .next { s with st := .expMul }) ∧
    (s.exp.toNat ≠ 0 → s.exp.toNat % 2 = 0 → coreStep s = .next { s with st := .expSqr })

/-- 41_modexp.md R155: the product is exact, the remainder is the new `RES`, and nothing but `PROD`,
`RES`, the trace and `ST` changes. -/
def Obligations.MultiplyStepIsExact : Prop :=
  ∀ s : State, s.st = .expMul → s.mod ≠ 0 →
    ∃ t, coreStep s = .next t ∧
      t.prod.toNat = s.res.toNat * s.base.toNat ∧ t.prod.toNat ≤ 65025 ∧
      t.res.toNat = s.res.toNat * s.base.toNat % s.mod.toNat ∧ t.res.toNat < s.mod.toNat ∧
      t = { s with prod := t.prod, res := t.res, trace := s.trace ++ [.mul], st := .expSqr }

/-- 41_modexp.md R156: the product is exact, the remainder is the new `BASE`, and nothing but `PROD`,
`BASE`, the trace and `ST` changes. -/
def Obligations.SquareStepIsExact : Prop :=
  ∀ s : State, s.st = .expSqr → s.mod ≠ 0 →
    ∃ t, coreStep s = .next t ∧
      t.prod.toNat = s.base.toNat * s.base.toNat ∧ t.prod.toNat ≤ 65025 ∧
      t.base.toNat = s.base.toNat * s.base.toNat % s.mod.toNat ∧ t.base.toNat < s.mod.toNat ∧
      t = { s with prod := t.prod, base := t.base, trace := s.trace ++ [.sqr], st := .expShr }

/-- 41_modexp.md R157: the logical right shift by one. -/
def Obligations.ShiftStepHalvesTheExponent : Prop :=
  ∀ s : State, s.st = .expShr →
    ∃ t, coreStep s = .next t ∧ t.exp.toNat = s.exp.toNat / 2 ∧
      (∀ i < 7, t.exp.getLsbD i = s.exp.getLsbD (i + 1)) ∧ t.exp.getLsbD 7 = false ∧
      t = { s with exp := t.exp, trace := s.trace ++ [.shr], st := .expHead }

/-- 42_compare.md R183: one index of Variant A, all three ways on. -/
def Obligations.EarlyExitStepFollowsItsRule : Prop :=
  ∀ s : State, s.st = .cmpaLoop →
    (s.idx = 8 → coreStep s = .next { s with st := .fin }) ∧
    (∀ i : Fin 8, s.idx.toNat = i.val →
      (s.coreByte i.val ≠ s.cfg.ref.get i →
        coreStep s = .next { s with trace := s.trace ++ [.cmp i], flag := 0, st := .fin }) ∧
      (s.coreByte i.val = s.cfg.ref.get i →
        ∃ t, coreStep s = .next t ∧ t.idx.toNat = i.val + 1 ∧
          t = { s with trace := s.trace ++ [.cmp i], idx := t.idx, st := .cmpaLoop }))

/-- 42_compare.md R184: one index of Variant B; the only branch is on `IDX`. -/
def Obligations.UniformStepFollowsItsRule : Prop :=
  ∀ s : State, s.st = .cmpbLoop →
    (s.idx = 8 → coreStep s = .next { s with st := .fin }) ∧
    (∀ i : Fin 8, s.idx.toNat = i.val →
      ∃ t, coreStep s = .next t ∧ t.idx.toNat = i.val + 1 ∧
        (∀ b < 8, t.acc.getLsbD b =
          (s.acc.getLsbD b || ((s.cfg.ref.get i).getLsbD b != (s.coreByte i.val).getLsbD b))) ∧
        t = { s with trace := s.trace ++ [.cmp i], idx := t.idx, acc := t.acc, st := .cmpbLoop })

/-- 40_invocation.md R124: the end of a normal invocation, for each latched command code. The tags are
the configuration's; their values are the ASCII codes of the spec's own presumption (log entry 14), and
the epoch is the model's own counter (log entry 6). -/
def Obligations.FinStepPublishesTheResult : Prop :=
  ∀ s : State, s.st = .fin →
    ∃ t, coreStep s = .next t ∧
      (s.opr = 0b00 ∨ s.opr = 0b01 → t.result = s.res ∧ t.rtag = s.cfg.tagExp) ∧
      (s.opr = 0b10 → t.result.toNat = s.flag.toNat ∧ t.rtag = s.cfg.tagCmp) ∧
      (s.opr = 0b11 → t.result = s.acc ∧ t.rtag = s.cfg.tagCmp) ∧
      (s.cfg = Config.built → s.cfg.tagExp = 0x72 ∧ s.cfg.tagCmp = 0x70) ∧
      t = { s with
        result := t.result, rtag := t.rtag, done := true, trig := false
        trace := s.trace ++ [.trigFall], ibufw := 0, st := .idle, epoch := s.epoch + 1 }

/-! ### Whole-machine rules -/

/-- 10_state.md R20 to R40: what the invariant says holds at reset. -/
def Obligations.InvariantHoldsAtReset : Prop := State.reset.Inv

/-- The invariant of the machine (40_invocation.md R125, R126, 10_state.md R24, R26, R31, R34,
93_implementation_defined.md U7): the trigger bracket, the status bits, the sequencer's registers, the
buffer's canonical form and the shape of the trace. Every step from any state that has it keeps it. -/
def Obligations.EveryStepKeepsTheInvariant : Prop :=
  ∀ s t : State, s.Inv → step s = .next t → t.Inv

/-- From a state with the invariant the machine never stops: the two stops of the model are out of
reach (41_modexp.md R153, 93_implementation_defined.md U7). -/
def Obligations.MachineNeverStops : Prop :=
  ∀ s : State, s.Inv → ∃ t, step s = .next t

/-- 60_exceptions.md R210, R216: an error is newly recorded in exactly two ways, and what holds after. -/
def Obligations.OnlyTwoErrorSources : Prop :=
  ∀ s t : State, s.Inv → step s = .next t → s.err = false → t.err = true →
    t.done = false ∧ t.st = .idle ∧ t.trig = false ∧ t.result = s.result ∧ t.rtag = s.rtag ∧
    ((s.st = .expChk ∧ s.mod = 0 ∧ t.statusByte = 0x0C ∧
        (s.inputs = [] ∨ ∃ rest, s.inputs = .core :: rest)) ∨
      (s.st = .idle ∧ t.statusByte = 0x14 ∧
        ∃ c rest, s.inputs = .wr 0x00 c :: rest ∧ 4 ≤ c.toNat))

/-- 10_state.md R37: `TRIG` moves at acceptance of a legal command, at the end of an invocation, at
reset, and nowhere else. -/
def Obligations.TriggerMovesOnlyAtWindowEdges : Prop :=
  ∀ s t : State, step s = .next t → t.trig ≠ s.trig →
    (s.trig = false ∧ s.st = .idle ∧ ∃ c rest, s.inputs = .wr 0x00 c :: rest ∧ c.toNat < 4) ∨
    (s.trig = true ∧ t.st = .idle ∧
      (s.st = .fin ∨ (s.st = .expChk ∧ s.mod = 0) ∨ ∃ rest, s.inputs = .rst :: rest))

/-- 10_state.md R32, R33: `RESULT` and `RTAG` change, and `DONE` is set, only in the `FIN` step (a reset
event makes the two registers unspecified). -/
def Obligations.ResultIsWrittenOnlyByFin : Prop :=
  ∀ s t : State, step s = .next t →
    t.result ≠ s.result ∨ t.rtag ≠ s.rtag ∨ (s.done = false ∧ t.done = true) →
    (s.st = .fin ∧ t.st = .idle ∧ t.done = true) ∨ ∃ rest, s.inputs = .rst :: rest

/-- 10_state.md R31, 60_exceptions.md R217: `DONE` and `ERR` go away only at a `CMD` write made while
idle, legal or illegal, or at reset. -/
def Obligations.OutcomeIsStickyUntilTheNextCommand : Prop :=
  ∀ s t : State, s.Inv → step s = .next t →
    (s.done = true ∧ t.done = false) ∨ (s.err = true ∧ t.err = false) →
    (s.st = .idle ∧ ∃ c rest, s.inputs = .wr 0x00 c :: rest) ∨ ∃ rest, s.inputs = .rst :: rest

/-- 10_state.md R35, R36: the Reference Secret and the constants are never written. -/
def Obligations.ConstantsAreNeverWritten : Prop :=
  ∀ s t : State, step s = .next t → t.cfg = s.cfg

/-- 20_memory.md R65, of the stored bytes (`Memory.read`): a byte of `IBUF` changes only by an idle host
write to its own address, or at a reset event. 10_state.md R34 makes the contents unspecified at the end
of an invocation too; that the stored bytes stay there, hidden by `IBUFW` from every core read, is the
model's choice (log entry 8). -/
def Obligations.BufferChangesOnlyByHostWrite : Prop :=
  ∀ (s t : State) (i : Nat), step s = .next t → t.ibuf.read i ≠ s.ibuf.read i →
    (s.st = .idle ∧ i < 10 ∧ ∃ a v rest, s.inputs = .wr a v :: rest ∧ a.toNat = 0x10 + i) ∨
    ∃ rest, s.inputs = .rst :: rest

/-- 40_invocation.md R125 (c), 10_state.md R39: every work event is appended inside the window, by the
step the rule names for it. -/
def Obligations.WorkHappensOnlyInsideTheWindow : Prop :=
  ∀ (s t : State) (e : Event), s.Inv → step s = .next t → t.trace = s.trace ++ [e] →
    e.isWork = true →
    s.trig = true ∧ t.trig = true ∧
    (e = .mul → s.st = .expMul) ∧ (e = .sqr → s.st = .expSqr) ∧ (e = .shr → s.st = .expShr) ∧
    (∀ i : Fin 8, e = .cmp i → (s.st = .cmpaLoop ∨ s.st = .cmpbLoop) ∧ s.idx.toNat = i.val)

/-- 20_memory.md R67, R75: outside the comparator loops the step does not depend on the Reference
Secret; replacing it changes nothing else, whatever the entry. -/
def Obligations.SecretIsReadOnlyByTheComparators : Prop :=
  ∀ (s t : State) (r : Vector Byte 8), s.st ≠ .cmpaLoop → s.st ≠ .cmpbLoop → step s = .next t →
    step (s.withSecret r) = .next (t.withSecret r)

/-! ### Whole invocations -/

/-- 41_modexp.md R150, R164: `EXPF` from acceptance to the end, whatever the buffer holds. -/
def Obligations.FixedExponentiationGives62 : Prop :=
  ∀ s : State, s.st = .idle → s.inputs = [] → s.cfg = Config.built →
    ∃ t u, exec .expf s = .next t ∧ runSteps 14 t = .next u ∧
      statesOver 14 t = [.expChk, .expHead, .expMul, .expSqr, .expShr, .expHead, .expSqr, .expShr,
        .expHead, .expMul, .expSqr, .expShr, .expHead, .fin] ∧
      u.st = .idle ∧ u.trig = false ∧ u.result = 0x3E ∧ u.rtag = 0x72 ∧ u.statusByte = 0x02 ∧
      u.trace = [.trigRise, .mul, .sqr, .shr, .sqr, .shr, .mul, .sqr, .shr, .trigFall]

/-- 41_modexp.md R151, R159, R160, R161, 40_invocation.md R127: `EXPV` with a modulus that is not 0,
for every message, exponent and modulus the core reads (written or not): the number of steps, the
trace, and the modular power, with 1 for exponent 0 whatever the modulus. -/
def Obligations.VariableExponentiationComputesThePower : Prop :=
  ∀ (s : State) (m e n : Byte), s.st = .idle → s.inputs = [] →
    s.coreByte 0 = m → s.coreByte 1 = e → s.coreByte 2 = n → n ≠ 0 →
    ∃ t u, exec .expv s = .next t ∧
      runSteps (3 + 3 * bitlen e + popcount e) t = .next u ∧
      u.st = .idle ∧ u.trig = false ∧ u.statusByte = 0x02 ∧ u.rtag = s.cfg.tagExp ∧
      u.result.toNat = (if e.toNat = 0 then 1 else m.toNat ^ e.toNat % n.toNat) ∧
      u.trace = expTrace e ∧
      ∀ k < 3 + 3 * bitlen e + popcount e, ∃ v, runSteps k t = .next v ∧ v.trig = true

/-- 60_exceptions.md R211, 41_modexp.md R153: with modulus 0 the invocation ends after one core step,
with the error, before any product, and with no new result. -/
def Obligations.VariableExponentiationRejectsZeroModulus : Prop :=
  ∀ s : State, s.st = .idle → s.inputs = [] → s.coreByte 2 = 0 →
    ∃ t u, exec .expv s = .next t ∧ t.trig = true ∧ runSteps 1 t = .next u ∧
      u.st = .idle ∧ u.trig = false ∧ u.statusByte = 0x0C ∧ u.trace = [.trigRise, .trigFall] ∧
      u.result = s.result ∧ u.rtag = s.rtag ∧ u.prod = s.prod ∧ (∀ i, u.written i = false)

/-- 42_compare.md R180, R186, 40_invocation.md R127: `CMPE` from acceptance to the end, for a first
mismatch at `k` and for a match. -/
def Obligations.EarlyExitComparisonOutcome : Prop :=
  ∀ s : State, s.st = .idle → s.inputs = [] →
    ∃ t, exec .cmpe s = .next t ∧
      (∀ k : Fin 8, s.coreByte k.val ≠ s.cfg.ref.get k →
        (∀ j : Fin 8, j.val < k.val → s.coreByte j.val = s.cfg.ref.get j) →
        ∃ u, runSteps (k.val + 2) t = .next u ∧ u.st = .idle ∧ u.trig = false ∧
          u.statusByte = 0x02 ∧ u.rtag = s.cfg.tagCmp ∧ u.result = 0x00 ∧ u.idx.toNat = k.val ∧
          u.trace = [.trigRise] ++ ((List.finRange 8).take (k.val + 1)).map .cmp ++ [.trigFall] ∧
          ∀ j < k.val + 2, ∃ v, runSteps j t = .next v ∧ v.trig = true) ∧
      ((∀ j : Fin 8, s.coreByte j.val = s.cfg.ref.get j) →
        ∃ u, runSteps 10 t = .next u ∧ u.st = .idle ∧ u.trig = false ∧
          u.statusByte = 0x02 ∧ u.rtag = s.cfg.tagCmp ∧ u.result = 0x01 ∧ u.idx.toNat = 8 ∧
          u.trace = [.trigRise] ++ (List.finRange 8).map .cmp ++ [.trigFall] ∧
          ∀ j < 10, ∃ v, runSteps j t = .next v ∧ v.trig = true)

/-- 42_compare.md R181, R186: `CMPU` from acceptance to the end, for every attempt: ten steps, eight
accesses, and the exact accumulator. -/
def Obligations.UniformComparisonOutcome : Prop :=
  ∀ s : State, s.st = .idle → s.inputs = [] →
    ∃ t u, exec .cmpu s = .next t ∧ runSteps 10 t = .next u ∧
      u.st = .idle ∧ u.trig = false ∧ u.statusByte = 0x02 ∧ u.rtag = s.cfg.tagCmp ∧
      u.idx.toNat = 8 ∧ u.flag = s.flag ∧
      (∀ b < 8, u.result.getLsbD b = true ↔
        ∃ i : Fin 8, (s.coreByte i.val).getLsbD b ≠ (s.cfg.ref.get i).getLsbD b) ∧
      u.trace = [.trigRise] ++ (List.finRange 8).map .cmp ++ [.trigFall] ∧
      ∀ j < 10, ∃ v, runSteps j t = .next v ∧ v.trig = true

/-- 42_compare.md R187: the two variants agree, with opposite polarity and the same tag. -/
def Obligations.ComparatorsAgreeWithOppositePolarity : Prop :=
  ∀ s : State, s.st = .idle → s.inputs = [] →
    ∃ ta ua tb ub k, exec .cmpe s = .next ta ∧ k ≤ 10 ∧ runSteps k ta = .next ua ∧ ua.st = .idle ∧
      exec .cmpu s = .next tb ∧ runSteps 10 tb = .next ub ∧ ub.st = .idle ∧
      ua.done = true ∧ ub.done = true ∧ ua.rtag = s.cfg.tagCmp ∧ ub.rtag = s.cfg.tagCmp ∧
      (ua.result = 0x01 ↔ ub.result = 0x00) ∧
      (ua.result = 0x01 ↔ ∀ i : Fin 8, s.coreByte i.val = s.cfg.ref.get i)

/-- 00_scope.md R5, 40_invocation.md R130: running the step rules from the command write to the return to
`IDLE` gives exactly the operation-level outcome, for every command byte and every idle state. -/
def Obligations.StepLevelRefinesTheOperationLevel : Prop :=
  ∀ (s : State) (c : Byte), s.st = .idle → s.inputs = [.wr 0x00 c] →
    ∃ t u, step s = .next t ∧ runSteps (invocationSteps s c) t = .next u ∧
      u.st = .idle ∧ u.shown = report s c

/-- 42_compare.md R188: the steps, the trace and the indices of a `CMPU` invocation are the same for any
two inputs, references and histories. The clause on clock cycles is not R188's: it holds under the
model's assumption that `CYC` depends on `ST` only (log entry 16; 70_reset_and_hazards.md R247 calls it
neither the source's nor a rule). For a `k` past the end of the invocation the idle core rests, which is
the model's choice (log entry 10). -/
def Obligations.UniformComparisonHidesItsInputs : Prop :=
  ∀ s₁ s₂ : State, s₁.st = .idle → s₂.st = .idle → s₁.inputs = [] → s₂.inputs = [] →
    ∃ t₁ t₂, exec .cmpu s₁ = .next t₁ ∧ exec .cmpu s₂ = .next t₂ ∧
      ∀ k, statesOver k t₁ = statesOver k t₂ ∧ cyclesOver k t₁ = cyclesOver k t₂ ∧
        ∃ u₁ u₂, runSteps k t₁ = .next u₁ ∧ runSteps k t₂ = .next u₂ ∧
          u₁.trace = u₂.trace ∧ u₁.trig = u₂.trig ∧ u₁.idx = u₂.idx

/-- 42_compare.md R188: a longer matching prefix keeps the window of `CMPE` open for strictly longer;
this is the leak Variant A demonstrates. -/
def Obligations.EarlyExitWindowGrowsWithThePrefix : Prop :=
  ∀ (s₁ s₂ : State) (k₁ k₂ : Fin 8), s₁.st = .idle → s₂.st = .idle → s₁.inputs = [] →
    s₂.inputs = [] →
    s₁.coreByte k₁.val ≠ s₁.cfg.ref.get k₁ →
    (∀ j : Fin 8, j.val < k₁.val → s₁.coreByte j.val = s₁.cfg.ref.get j) →
    (∀ j : Fin 8, j.val < k₂.val → s₂.coreByte j.val = s₂.cfg.ref.get j) → k₁.val < k₂.val →
    ∃ t₁ t₂ u₁ u₂, exec .cmpe s₁ = .next t₁ ∧ exec .cmpe s₂ = .next t₂ ∧
      runSteps (k₁.val + 2) t₁ = .next u₁ ∧ runSteps (k₁.val + 2) t₂ = .next u₂ ∧
      u₁.trig = false ∧ u₂.trig = true

/-- 41_modexp.md R163: one engine, two bindings. With the constants in the buffer, `EXPV` takes the same
sequence of `ST` values as `EXPF` and shows the same outcome. (For a `k` past the end the idle core rests:
log entry 10. What `shown` says before the end is the model's: log entry 22.) -/
def Obligations.FixedAndVariableShareOneEngine : Prop :=
  ∀ s : State, s.st = .idle → s.inputs = [] →
    s.coreByte 0 = s.cfg.fmsg → s.coreByte 1 = s.cfg.fexp → s.coreByte 2 = s.cfg.fmod →
    ∃ t₁ t₂, exec .expf s = .next t₁ ∧ exec .expv s = .next t₂ ∧
      ∀ k, statesOver k t₁ = statesOver k t₂ ∧
        ∃ u₁ u₂, runSteps k t₁ = .next u₁ ∧ runSteps k t₂ = .next u₂ ∧
          u₁.trig = u₂.trig ∧ u₁.shown = u₂.shown

/-- 41_modexp.md R160: the trace of an exponentiation depends on the exponent only, and determines it.
(35 core steps see any invocation to its end; that an idle core then rests is log entry 10.) -/
def Obligations.ExponentiationTraceRevealsTheExponent : Prop :=
  ∀ s₁ s₂ : State, s₁.st = .idle → s₂.st = .idle → s₁.inputs = [] → s₂.inputs = [] →
    s₁.coreByte 2 ≠ 0 → s₂.coreByte 2 ≠ 0 →
    ∃ t₁ t₂ u₁ u₂, exec .expv s₁ = .next t₁ ∧ exec .expv s₂ = .next t₂ ∧
      runSteps 35 t₁ = .next u₁ ∧ runSteps 35 t₂ = .next u₂ ∧
      (u₁.trace = u₂.trace ↔ s₁.coreByte 1 = s₂.coreByte 1)

/-- 00_scope.md R12, 10_state.md R41: the outcome of an invocation depends only on the command, the
buffer bytes it reads and the constants, not on anything an earlier invocation left. (An idle core rests:
log entry 10.) -/
def Obligations.OutcomeForgetsTheHistory : Prop :=
  ∀ (i : Instr) (s₁ s₂ : State), s₁.st = .idle → s₂.st = .idle → s₁.inputs = [] → s₂.inputs = [] →
    s₁.cfg = s₂.cfg → (∀ k < readsBelow i, s₁.coreByte k = s₂.coreByte k) →
    ∃ t₁ t₂ u₁ u₂, exec i s₁ = .next t₁ ∧ exec i s₂ = .next t₂ ∧
      runSteps 35 t₁ = .next u₁ ∧ runSteps 35 t₂ = .next u₂ ∧ u₁.st = .idle ∧
      u₁.shown = u₂.shown

/-- 40_invocation.md R127, R128: from any state with the invariant, the core alone is idle again after
at most 35 core steps. -/
def Obligations.EveryInvocationEndsWithin35Steps : Prop :=
  ∀ s : State, s.Inv → s.inputs = [] →
    ∃ k u, k ≤ 35 ∧ runSteps k s = .next u ∧ u.st = .idle

/-- 40_invocation.md R128: run to completion. Interleave an invocation with host reads and writes in any
way while it is busy: CORE ends where the core steps alone end. -/
def Obligations.HostCannotDisturbAnInvocation : Prop :=
  ∀ (xs : List Input) (s : State), s.inputs = xs →
    (∀ x ∈ xs, x = .core ∨ (∃ a v, x = .wr a v) ∨ ∃ a, x = .rd a) →
    (∀ j ≤ xs.count .core,
      ∃ v, runSteps j { s with inputs := [] } = .next v ∧ v.st ≠ .idle) →
    ∃ u v, runSteps xs.length s = .next u ∧
      runSteps (xs.count .core) { s with inputs := [] } = .next v ∧
      ({ u with inputs := [], reads := [] } : State) = { v with inputs := [], reads := [] }

/-! ### Host programs -/

/-- 30_encoding.md R98, R99: the pseudo-statements deliver their operands and start their command. (That
no core step falls between their transactions is the model's choice: log entry 21.) -/
def Obligations.StatementsDeliverTheirOperands : Prop :=
  ∀ s : State, s.st = .idle → s.inputs = [] → s.ibuf.wf = true →
    (∀ m e n : Byte, ∃ t, runSteps 4 (s.withProgram [.expvOf m e n]) = .next t ∧
      t.st = .expChk ∧ t.base = m ∧ t.exp = e ∧ t.mod = n ∧ t.inputs = []) ∧
    (∀ bs : List Byte, bs.length = 10 →
      (∃ t, runSteps 11 (s.withProgram [.cmpeOf bs]) = .next t ∧ t.st = .cmpaLoop ∧ t.inputs = [] ∧
        ∀ i (h : i < bs.length), t.coreByte i = bs[i]) ∧
      (∃ t, runSteps 11 (s.withProgram [.cmpuOf bs]) = .next t ∧ t.st = .cmpbLoop ∧ t.inputs = [] ∧
        ∀ i (h : i < bs.length), t.coreByte i = bs[i]))

/-- 30_encoding.md R99: what `GET` reads from an idle core. -/
def Obligations.GetReadsTheResponse : Prop :=
  ∀ (s : State) (rest : List Input), s.Inv → s.st = .idle → s.inputs = Stmt.expand .get ++ rest →
    (s.done = true → ∃ u, runSteps 4 s = .next u ∧
      u = { s with
        inputs := rest
        reads := s.reads ++ [(0x01, 0x02), (0x01, 0x02), (0x03, s.rtag), (0x02, s.result)] }) ∧
    (s.done = false → ∃ u, runSteps 2 s = .next u ∧
      u = { s with
        inputs := rest, reads := s.reads ++ [(0x01, s.statusByte), (0x01, s.statusByte)] })

/-- 70_reset_and_hazards.md R246, 40_invocation.md R128: `WAIT` ends, with `STATUS` read once more and
`BUSY` = 0. That one core step stands between two polls is the model's choice (log entry 11). -/
def Obligations.WaitEnds : Prop :=
  ∀ s : State, s.Inv → s.inputs = [.wait] →
    ∃ k u, k ≤ 71 ∧ runSteps k s = .next u ∧ u.st = .idle ∧ u.inputs = [] ∧
      ∃ rs v, u.reads = rs ++ [(0x01, v)] ∧ v.getLsbD 0 = false

/-- 70_reset_and_hazards.md R243: a host that keeps its duties at the command write gets a result, and
every byte the command reads is one it wrote. -/
def Obligations.DutifulCommandGetsAResult : Prop :=
  ∀ (s : State) (c : Byte), s.inputs = [.wr 0x00 c] → s.cfg = Config.built →
    dutiful (.wr 0x00 c) s = true →
    ∃ i t u k, decode c = .ok i ∧ (∀ j < readsBelow i, s.coreByte j = s.ibuf.read j) ∧
      step s = .next t ∧ k ≤ 35 ∧ runSteps k t = .next u ∧
      u.st = .idle ∧ u.done = true ∧ u.err = false

/-- The whole path of 30_encoding.md R99 and 41_modexp.md R151: a host program `EXPV m, e, n ; GET` run
from any idle state ends with the host holding the tag and the modular power. (The schedule, one core
step between two polls and none between the program's other transactions, is the model's choice: log
entries 11 and 21.) -/
def Obligations.HostProgramReadsTheModularPower : Prop :=
  ∀ (s : State) (m e n : Byte), s.Inv → s.st = .idle → s.inputs = [] → n ≠ 0 →
    ∃ k u r rs, runSteps k (s.withProgram [.expvOf m e n, .get]) = .next u ∧ u.inputs = [] ∧
      u.reads = rs ++ [(0x01, 0x02), (0x03, s.cfg.tagExp), (0x02, r)] ∧
      r.toNat = (if e.toNat = 0 then 1 else m.toNat ^ e.toNat % n.toNat)

/-- The whole path of 30_encoding.md R99 and 42_compare.md R180: a host program `CMPE bytes ; GET` reads
0x01 exactly when the first eight bytes are the Reference Secret; the last two are ignored. (The schedule
is the model's choice: log entries 11 and 21.) -/
def Obligations.HostProgramChecksTheSecret : Prop :=
  ∀ (s : State) (bs : List Byte), s.Inv → s.st = .idle → s.inputs = [] → bs.length = 10 →
    ∃ k u r rs, runSteps k (s.withProgram [.cmpeOf bs, .get]) = .next u ∧ u.inputs = [] ∧
      u.reads = rs ++ [(0x01, 0x02), (0x03, s.cfg.tagCmp), (0x02, r)] ∧
      (r = 0x00 ∨ r = 0x01) ∧ (r = 0x01 ↔ bs.take 8 = s.cfg.ref.toList)
end

