-- ==== Sys2Proof/Laws/Arithmetic.lean ====
section
/-! SUPPORT. What the arithmetic primitives compute, as exact numbers (41_modexp.md R158), and what the
`STATUS` byte is. -/

namespace Sys2Proof.Machine

/-- The product never wraps (41_modexp.md R158 (a)). -/
theorem product_toNat (a b : Byte) : (product a b).toNat = a.toNat * b.toNat := by
  have ha := a.isLt
  have hb := b.isLt
  have h : a.toNat * b.toNat < 2 ^ 16 :=
    calc a.toNat * b.toNat ≤ 255 * 255 := Nat.mul_le_mul (by omega) (by omega)
      _ < 2 ^ 16 := by norm_num
  simp only [product, zext16, BitVec.toNat_mul, BitVec.toNat_setWidth]
  rw [Nat.mod_eq_of_lt (a := a.toNat) (by omega), Nat.mod_eq_of_lt (a := b.toNat) (by omega),
    Nat.mod_eq_of_lt h]

/-- The slice to eight bits loses nothing (41_modexp.md R155). -/
theorem remainder_toNat (p : Wide) {n : Byte} (hn : n ≠ 0) :
    (remainder p n).toNat = p.toNat % n.toNat := by
  have hpos : 0 < n.toNat := by
    rcases Nat.eq_zero_or_pos n.toNat with h | h
    · exact absurd (BitVec.eq_of_toNat_eq (by simpa using h)) hn
    · exact h
  have hlt : p.toNat % n.toNat < n.toNat := Nat.mod_lt _ hpos
  have hn8 := n.isLt
  simp only [remainder, zext16, BitVec.extractLsb'_toNat, BitVec.toNat_umod, BitVec.toNat_setWidth]
  rw [Nat.mod_eq_of_lt (a := n.toNat) (by omega), Nat.shiftRight_zero, Nat.mod_eq_of_lt (by omega)]

theorem shiftRightOne_toNat (e : Byte) : (shiftRightOne e).toNat = e.toNat / 2 := by
  simp [shiftRightOne, Nat.shiftRight_eq_div_pow]

theorem bitZero_eq (e : Byte) : e.getLsbD 0 = decide (e.toNat % 2 = 1) := by
  simp [BitVec.getLsbD, Nat.testBit_zero]

/-- The value of the `STATUS` byte (30_encoding.md R97). -/
theorem State.statusByte_toNat (s : State) :
    s.statusByte.toNat = s.busy.toNat + 2 * s.done.toNat + 4 * s.err.toNat + 8 * s.ecode.code.toNat := by
  unfold State.statusByte
  cases s.busy <;> cases s.done <;> cases s.err <;> cases s.ecode <;> rfl

/-- The `STATUS` byte from its fields (30_encoding.md R97). -/
theorem State.statusByte_of {s : State} {b d e : Bool} {c : ECode} (hb : s.busy = b) (hd : s.done = d)
    (he : s.err = e) (hc : s.ecode = c) :
    s.statusByte =
      (0#3 ++ c.code ++ BitVec.ofBool e ++ BitVec.ofBool d ++ BitVec.ofBool b : BitVec 8) := by
  subst hb hd he hc
  rfl

theorem State.busy_eq_true {s : State} : s.busy = true ↔ s.st ≠ .idle := by simp [State.busy]

theorem State.busy_eq_false {s : State} : s.busy = false ↔ s.st = .idle := by simp [State.busy]

end Sys2Proof.Machine
end

