-- ==== Sys2Proof/Laws/Memory.lean ====
section
/-! SUPPORT. The laws of the `IBUF` memory: a write is read back, leaves every other index alone, and
keeps the canonical form. -/

namespace Sys2Proof.Machine

@[simp] theorem Memory.read_nil (a : Nat) : Memory.read [] a = Memory.unlisted := rfl

theorem Memory.read_cons_cell (b : Nat) (w : Byte) (m : Memory) (a : Nat) :
    Memory.read ((b, w) :: m) a = if b = a then w else Memory.read m a := rfl

theorem Memory.wfFrom_mono {lo hi : Nat} (h : lo ≤ hi) :
    ∀ {m : Memory}, Memory.wfFrom hi m = true → Memory.wfFrom lo m = true
  | [], _ => rfl
  | (b, v) :: rest, hm => by
    simp only [Memory.wfFrom, Bool.and_eq_true, decide_eq_true_eq] at hm ⊢
    exact ⟨⟨by omega, hm.1.2⟩, hm.2⟩

/-- Below its lower bound a canonical memory lists nothing. -/
theorem Memory.read_below {a : Nat} :
    ∀ {lo : Nat} {m : Memory}, Memory.wfFrom lo m = true → a < lo → Memory.read m a = Memory.unlisted
  | _, [], _, _ => rfl
  | lo, (b, v) :: rest, hm, ha => by
    simp only [Memory.wfFrom, Bool.and_eq_true, decide_eq_true_eq] at hm
    rw [Memory.read_cons_cell, if_neg (by omega)]
    exact Memory.read_below hm.2 (by omega)

theorem Memory.wfFrom_cons {lo a : Nat} {v : Byte} {m : Memory} (ha : lo ≤ a)
    (hm : Memory.wfFrom (a + 1) m = true) : Memory.wfFrom lo (Memory.cons a v m) = true := by
  unfold Memory.cons
  split
  · exact Memory.wfFrom_mono (by omega) hm
  · next hv => simp [Memory.wfFrom, ha, hm, hv]

theorem Memory.read_cons_same {a : Nat} {v : Byte} {m : Memory}
    (hm : Memory.wfFrom (a + 1) m = true) : Memory.read (Memory.cons a v m) a = v := by
  unfold Memory.cons
  split
  · next hv => rw [Memory.read_below hm (by omega), hv]
  · simp [Memory.read_cons_cell]

theorem Memory.read_cons_other {a b : Nat} {v : Byte} {m : Memory} (h : a ≠ b) :
    Memory.read (Memory.cons a v m) b = Memory.read m b := by
  unfold Memory.cons
  split
  · rfl
  · rw [Memory.read_cons_cell, if_neg h]

/-- A write keeps the canonical form. -/
theorem Memory.write_wfFrom {a : Nat} {v : Byte} :
    ∀ {lo : Nat} {m : Memory}, lo ≤ a → Memory.wfFrom lo m = true →
      Memory.wfFrom lo (Memory.write m a v) = true
  | lo, [], ha, _ => Memory.wfFrom_cons ha rfl
  | lo, (b, w) :: rest, ha, hm => by
    have hm' := hm
    simp only [Memory.wfFrom, Bool.and_eq_true, decide_eq_true_eq] at hm'
    unfold Memory.write
    split
    · next hab =>
      refine Memory.wfFrom_cons ha ?_
      simp only [Memory.wfFrom, Bool.and_eq_true, decide_eq_true_eq]
      exact ⟨⟨hab, hm'.1.2⟩, hm'.2⟩
    · split
      · next hab => subst hab; exact Memory.wfFrom_cons ha hm'.2
      · have ih := Memory.write_wfFrom (v := v) (show b + 1 ≤ a by omega) hm'.2
        simp only [Memory.wfFrom, Bool.and_eq_true, decide_eq_true_eq]
        exact ⟨hm'.1, ih⟩

theorem Memory.write_wf {m : Memory} {a : Nat} {v : Byte} (hm : m.wf = true) :
    (Memory.write m a v).wf = true :=
  Memory.write_wfFrom (Nat.zero_le a) hm

/-- A canonical memory reads back what was written. -/
theorem Memory.read_write_sameFrom {a : Nat} {v : Byte} :
    ∀ {lo : Nat} {m : Memory}, Memory.wfFrom lo m = true → Memory.read (Memory.write m a v) a = v
  | _, [], _ => Memory.read_cons_same rfl
  | lo, (b, w) :: rest, hm => by
    simp only [Memory.wfFrom, Bool.and_eq_true, decide_eq_true_eq] at hm
    unfold Memory.write
    split
    · next hab =>
      refine Memory.read_cons_same ?_
      simp only [Memory.wfFrom, Bool.and_eq_true, decide_eq_true_eq]
      exact ⟨⟨hab, hm.1.2⟩, hm.2⟩
    · split
      · next hab => subst hab; exact Memory.read_cons_same hm.2
      · rw [Memory.read_cons_cell, if_neg (by omega)]
        exact Memory.read_write_sameFrom hm.2

theorem Memory.read_write_same {m : Memory} {a : Nat} {v : Byte} (hm : m.wf = true) :
    Memory.read (Memory.write m a v) a = v :=
  Memory.read_write_sameFrom hm

/-- A write leaves every other index alone. -/
theorem Memory.read_write_other {a b : Nat} {v : Byte} (h : a ≠ b) :
    ∀ {m : Memory}, Memory.read (Memory.write m a v) b = Memory.read m b
  | [] => Memory.read_cons_other h
  | (c, w) :: rest => by
    unfold Memory.write
    split
    · exact Memory.read_cons_other h
    · split
      · next hac =>
        rw [Memory.read_cons_other h, Memory.read_cons_cell, if_neg (by omega)]
      · rw [Memory.read_cons_cell, Memory.read_cons_cell, Memory.read_write_other h]

theorem Memory.inBuffer_cons {a : Nat} {v : Byte} {m : Memory} (ha : a < 10)
    (hm : m.inBuffer = true) : (Memory.cons a v m).inBuffer = true := by
  unfold Memory.cons
  split
  · exact hm
  · simpa [Memory.inBuffer, ha] using hm

/-- A write to one of the ten indices keeps the memory inside the buffer. -/
theorem Memory.write_inBuffer {a : Nat} {v : Byte} (ha : a < 10) :
    ∀ {m : Memory}, m.inBuffer = true → (Memory.write m a v).inBuffer = true
  | [], _ => Memory.inBuffer_cons ha rfl
  | (b, w) :: rest, hm => by
    have hm' : b < 10 ∧ Memory.inBuffer rest = true := by simpa [Memory.inBuffer] using hm
    unfold Memory.write
    split
    · exact Memory.inBuffer_cons ha hm
    · split
      · exact Memory.inBuffer_cons ha hm'.2
      · simpa [Memory.inBuffer, hm'.1] using Memory.write_inBuffer ha hm'.2

theorem State.reset_ibuf_wf : State.reset.ibuf.wf = true := rfl

/-- The bit of index `j` in the written map after a store to index `i` (10_state.md R40). -/
theorem State.storeByte_written (s : State) (i : Nat) (v : Byte) (hi : i < 10) (j : Nat) :
    (s.storeByte i v).written j = (s.written j || decide (j = i)) := by
  have key : ∀ a : Nat, a < 10 → ∀ b : Nat, b < 10 →
      (BitVec.ofNat 10 (2 ^ a)).getLsbD b = decide (b = a) := by decide
  simp only [State.storeByte, State.written, BitVec.getLsbD_or]
  rcases Nat.lt_or_ge j 10 with hj | hj
  · rw [key i hi j hj]
  · rw [BitVec.getLsbD_of_ge _ _ hj, BitVec.getLsbD_of_ge _ _ hj]
    have : j ≠ i := by omega
    simp [this]

end Sys2Proof.Machine
end

