-- ==== Sys2Proof/Laws/PerInstr.lean ====
section
/-! SUPPORT. Facts about every command as syntax, one lemma per constructor. -/

/-- The command byte of every command has its field `ZERO` clear, its two low bits are the fields
`UNIT` and `VAR` the opcode map gives it, and the byte decodes back to the command
(30_encoding.md R90, R91). -/
def Sys2Proof.Laws.EncodedShape.Statement (i : Sys2Proof.Instr) : Prop :=
  i.wf = true ∧ Sys2Proof.fieldZero (Sys2Proof.encode i) = 0 ∧
    Sys2Proof.decode (Sys2Proof.encode i) = .ok i ∧
    Sys2Proof.fieldUnit (Sys2Proof.encode i) = (i == .cmpe || i == .cmpu) ∧
    Sys2Proof.fieldVar (Sys2Proof.encode i) = (i == .expv || i == .cmpu)

theorem Sys2Proof.Laws.EncodedShape.expf : Sys2Proof.Laws.EncodedShape.Statement .expf :=
  ⟨rfl, rfl, rfl, rfl, rfl⟩

theorem Sys2Proof.Laws.EncodedShape.expv : Sys2Proof.Laws.EncodedShape.Statement .expv :=
  ⟨rfl, rfl, rfl, rfl, rfl⟩

theorem Sys2Proof.Laws.EncodedShape.cmpe : Sys2Proof.Laws.EncodedShape.Statement .cmpe :=
  ⟨rfl, rfl, rfl, rfl, rfl⟩

theorem Sys2Proof.Laws.EncodedShape.cmpu : Sys2Proof.Laws.EncodedShape.Statement .cmpu :=
  ⟨rfl, rfl, rfl, rfl, rfl⟩
end

