-- ==== Sys2Proof/Laws/State.lean ====
section
/-! SUPPORT. What each named update of the state does to each field: one lemma per field and update,
so that no proof unfolds an update. -/

namespace Sys2Proof.Machine

variable (s : State)

/-! ### State.goto -/

@[simp] theorem State.goto_res (n : SeqState) : (s.goto n).res = s.res := rfl
@[simp] theorem State.goto_base (n : SeqState) : (s.goto n).base = s.base := rfl
@[simp] theorem State.goto_exp (n : SeqState) : (s.goto n).exp = s.exp := rfl
@[simp] theorem State.goto_mod (n : SeqState) : (s.goto n).mod = s.mod := rfl
@[simp] theorem State.goto_prod (n : SeqState) : (s.goto n).prod = s.prod := rfl
@[simp] theorem State.goto_idx (n : SeqState) : (s.goto n).idx = s.idx := rfl
@[simp] theorem State.goto_acc (n : SeqState) : (s.goto n).acc = s.acc := rfl
@[simp] theorem State.goto_flag (n : SeqState) : (s.goto n).flag = s.flag := rfl
@[simp] theorem State.goto_st (n : SeqState) : (s.goto n).st = n := rfl
@[simp] theorem State.goto_opr (n : SeqState) : (s.goto n).opr = s.opr := rfl
@[simp] theorem State.goto_done (n : SeqState) : (s.goto n).done = s.done := rfl
@[simp] theorem State.goto_err (n : SeqState) : (s.goto n).err = s.err := rfl
@[simp] theorem State.goto_ecode (n : SeqState) : (s.goto n).ecode = s.ecode := rfl
@[simp] theorem State.goto_result (n : SeqState) : (s.goto n).result = s.result := rfl
@[simp] theorem State.goto_rtag (n : SeqState) : (s.goto n).rtag = s.rtag := rfl
@[simp] theorem State.goto_ibuf (n : SeqState) : (s.goto n).ibuf = s.ibuf := rfl
@[simp] theorem State.goto_cfg (n : SeqState) : (s.goto n).cfg = s.cfg := rfl
@[simp] theorem State.goto_trig (n : SeqState) : (s.goto n).trig = s.trig := rfl
@[simp] theorem State.goto_trace (n : SeqState) : (s.goto n).trace = s.trace := rfl
@[simp] theorem State.goto_ibufw (n : SeqState) : (s.goto n).ibufw = s.ibufw := rfl
@[simp] theorem State.goto_inputs (n : SeqState) : (s.goto n).inputs = s.inputs := rfl
@[simp] theorem State.goto_reads (n : SeqState) : (s.goto n).reads = s.reads := rfl
@[simp] theorem State.goto_epoch (n : SeqState) : (s.goto n).epoch = s.epoch := rfl

/-! ### State.emit -/

@[simp] theorem State.emit_res (e : Event) : (s.emit e).res = s.res := rfl
@[simp] theorem State.emit_base (e : Event) : (s.emit e).base = s.base := rfl
@[simp] theorem State.emit_exp (e : Event) : (s.emit e).exp = s.exp := rfl
@[simp] theorem State.emit_mod (e : Event) : (s.emit e).mod = s.mod := rfl
@[simp] theorem State.emit_prod (e : Event) : (s.emit e).prod = s.prod := rfl
@[simp] theorem State.emit_idx (e : Event) : (s.emit e).idx = s.idx := rfl
@[simp] theorem State.emit_acc (e : Event) : (s.emit e).acc = s.acc := rfl
@[simp] theorem State.emit_flag (e : Event) : (s.emit e).flag = s.flag := rfl
@[simp] theorem State.emit_st (e : Event) : (s.emit e).st = s.st := rfl
@[simp] theorem State.emit_opr (e : Event) : (s.emit e).opr = s.opr := rfl
@[simp] theorem State.emit_done (e : Event) : (s.emit e).done = s.done := rfl
@[simp] theorem State.emit_err (e : Event) : (s.emit e).err = s.err := rfl
@[simp] theorem State.emit_ecode (e : Event) : (s.emit e).ecode = s.ecode := rfl
@[simp] theorem State.emit_result (e : Event) : (s.emit e).result = s.result := rfl
@[simp] theorem State.emit_rtag (e : Event) : (s.emit e).rtag = s.rtag := rfl
@[simp] theorem State.emit_ibuf (e : Event) : (s.emit e).ibuf = s.ibuf := rfl
@[simp] theorem State.emit_cfg (e : Event) : (s.emit e).cfg = s.cfg := rfl
@[simp] theorem State.emit_trig (e : Event) : (s.emit e).trig = s.trig := rfl
@[simp] theorem State.emit_trace (e : Event) : (s.emit e).trace = s.trace ++ [e] := rfl
@[simp] theorem State.emit_ibufw (e : Event) : (s.emit e).ibufw = s.ibufw := rfl
@[simp] theorem State.emit_inputs (e : Event) : (s.emit e).inputs = s.inputs := rfl
@[simp] theorem State.emit_reads (e : Event) : (s.emit e).reads = s.reads := rfl
@[simp] theorem State.emit_epoch (e : Event) : (s.emit e).epoch = s.epoch := rfl

/-! ### State.storeByte -/

@[simp] theorem State.storeByte_res (i : Nat) (v : Byte) : (s.storeByte i v).res = s.res := rfl
@[simp] theorem State.storeByte_base (i : Nat) (v : Byte) : (s.storeByte i v).base = s.base := rfl
@[simp] theorem State.storeByte_exp (i : Nat) (v : Byte) : (s.storeByte i v).exp = s.exp := rfl
@[simp] theorem State.storeByte_mod (i : Nat) (v : Byte) : (s.storeByte i v).mod = s.mod := rfl
@[simp] theorem State.storeByte_prod (i : Nat) (v : Byte) : (s.storeByte i v).prod = s.prod := rfl
@[simp] theorem State.storeByte_idx (i : Nat) (v : Byte) : (s.storeByte i v).idx = s.idx := rfl
@[simp] theorem State.storeByte_acc (i : Nat) (v : Byte) : (s.storeByte i v).acc = s.acc := rfl
@[simp] theorem State.storeByte_flag (i : Nat) (v : Byte) : (s.storeByte i v).flag = s.flag := rfl
@[simp] theorem State.storeByte_st (i : Nat) (v : Byte) : (s.storeByte i v).st = s.st := rfl
@[simp] theorem State.storeByte_opr (i : Nat) (v : Byte) : (s.storeByte i v).opr = s.opr := rfl
@[simp] theorem State.storeByte_done (i : Nat) (v : Byte) : (s.storeByte i v).done = s.done := rfl
@[simp] theorem State.storeByte_err (i : Nat) (v : Byte) : (s.storeByte i v).err = s.err := rfl
@[simp] theorem State.storeByte_ecode (i : Nat) (v : Byte) : (s.storeByte i v).ecode = s.ecode := rfl
@[simp] theorem State.storeByte_result (i : Nat) (v : Byte) : (s.storeByte i v).result = s.result := rfl
@[simp] theorem State.storeByte_rtag (i : Nat) (v : Byte) : (s.storeByte i v).rtag = s.rtag := rfl
@[simp] theorem State.storeByte_ibuf (i : Nat) (v : Byte) : (s.storeByte i v).ibuf = s.ibuf.write i v := rfl
@[simp] theorem State.storeByte_cfg (i : Nat) (v : Byte) : (s.storeByte i v).cfg = s.cfg := rfl
@[simp] theorem State.storeByte_trig (i : Nat) (v : Byte) : (s.storeByte i v).trig = s.trig := rfl
@[simp] theorem State.storeByte_trace (i : Nat) (v : Byte) : (s.storeByte i v).trace = s.trace := rfl
@[simp] theorem State.storeByte_ibufw (i : Nat) (v : Byte) : (s.storeByte i v).ibufw = s.ibufw ||| BitVec.ofNat 10 (2 ^ i) := rfl
@[simp] theorem State.storeByte_inputs (i : Nat) (v : Byte) : (s.storeByte i v).inputs = s.inputs := rfl
@[simp] theorem State.storeByte_reads (i : Nat) (v : Byte) : (s.storeByte i v).reads = s.reads := rfl
@[simp] theorem State.storeByte_epoch (i : Nat) (v : Byte) : (s.storeByte i v).epoch = s.epoch := rfl

/-! ### State.raise -/

@[simp] theorem State.raise_res (c : ECode) : (s.raise c).res = s.res := rfl
@[simp] theorem State.raise_base (c : ECode) : (s.raise c).base = s.base := rfl
@[simp] theorem State.raise_exp (c : ECode) : (s.raise c).exp = s.exp := rfl
@[simp] theorem State.raise_mod (c : ECode) : (s.raise c).mod = s.mod := rfl
@[simp] theorem State.raise_prod (c : ECode) : (s.raise c).prod = s.prod := rfl
@[simp] theorem State.raise_idx (c : ECode) : (s.raise c).idx = s.idx := rfl
@[simp] theorem State.raise_acc (c : ECode) : (s.raise c).acc = s.acc := rfl
@[simp] theorem State.raise_flag (c : ECode) : (s.raise c).flag = s.flag := rfl
@[simp] theorem State.raise_st (c : ECode) : (s.raise c).st = s.st := rfl
@[simp] theorem State.raise_opr (c : ECode) : (s.raise c).opr = s.opr := rfl
@[simp] theorem State.raise_done (c : ECode) : (s.raise c).done = false := rfl
@[simp] theorem State.raise_err (c : ECode) : (s.raise c).err = true := rfl
@[simp] theorem State.raise_ecode (c : ECode) : (s.raise c).ecode = c := rfl
@[simp] theorem State.raise_result (c : ECode) : (s.raise c).result = s.result := rfl
@[simp] theorem State.raise_rtag (c : ECode) : (s.raise c).rtag = s.rtag := rfl
@[simp] theorem State.raise_ibuf (c : ECode) : (s.raise c).ibuf = s.ibuf := rfl
@[simp] theorem State.raise_cfg (c : ECode) : (s.raise c).cfg = s.cfg := rfl
@[simp] theorem State.raise_trig (c : ECode) : (s.raise c).trig = s.trig := rfl
@[simp] theorem State.raise_trace (c : ECode) : (s.raise c).trace = s.trace := rfl
@[simp] theorem State.raise_ibufw (c : ECode) : (s.raise c).ibufw = s.ibufw := rfl
@[simp] theorem State.raise_inputs (c : ECode) : (s.raise c).inputs = s.inputs := rfl
@[simp] theorem State.raise_reads (c : ECode) : (s.raise c).reads = s.reads := rfl
@[simp] theorem State.raise_epoch (c : ECode) : (s.raise c).epoch = s.epoch := rfl

/-! ### State.clearOutcome -/

@[simp] theorem State.clearOutcome_res : s.clearOutcome.res = s.res := rfl
@[simp] theorem State.clearOutcome_base : s.clearOutcome.base = s.base := rfl
@[simp] theorem State.clearOutcome_exp : s.clearOutcome.exp = s.exp := rfl
@[simp] theorem State.clearOutcome_mod : s.clearOutcome.mod = s.mod := rfl
@[simp] theorem State.clearOutcome_prod : s.clearOutcome.prod = s.prod := rfl
@[simp] theorem State.clearOutcome_idx : s.clearOutcome.idx = s.idx := rfl
@[simp] theorem State.clearOutcome_acc : s.clearOutcome.acc = s.acc := rfl
@[simp] theorem State.clearOutcome_flag : s.clearOutcome.flag = s.flag := rfl
@[simp] theorem State.clearOutcome_st : s.clearOutcome.st = s.st := rfl
@[simp] theorem State.clearOutcome_opr : s.clearOutcome.opr = s.opr := rfl
@[simp] theorem State.clearOutcome_done : s.clearOutcome.done = false := rfl
@[simp] theorem State.clearOutcome_err : s.clearOutcome.err = false := rfl
@[simp] theorem State.clearOutcome_ecode : s.clearOutcome.ecode = .none := rfl
@[simp] theorem State.clearOutcome_result : s.clearOutcome.result = s.result := rfl
@[simp] theorem State.clearOutcome_rtag : s.clearOutcome.rtag = s.rtag := rfl
@[simp] theorem State.clearOutcome_ibuf : s.clearOutcome.ibuf = s.ibuf := rfl
@[simp] theorem State.clearOutcome_cfg : s.clearOutcome.cfg = s.cfg := rfl
@[simp] theorem State.clearOutcome_trig : s.clearOutcome.trig = s.trig := rfl
@[simp] theorem State.clearOutcome_trace : s.clearOutcome.trace = s.trace := rfl
@[simp] theorem State.clearOutcome_ibufw : s.clearOutcome.ibufw = s.ibufw := rfl
@[simp] theorem State.clearOutcome_inputs : s.clearOutcome.inputs = s.inputs := rfl
@[simp] theorem State.clearOutcome_reads : s.clearOutcome.reads = s.reads := rfl
@[simp] theorem State.clearOutcome_epoch : s.clearOutcome.epoch = s.epoch := rfl

/-! ### State.openWindow -/

@[simp] theorem State.openWindow_res (op : BitVec 2) : (s.openWindow op).res = s.res := rfl
@[simp] theorem State.openWindow_base (op : BitVec 2) : (s.openWindow op).base = s.base := rfl
@[simp] theorem State.openWindow_exp (op : BitVec 2) : (s.openWindow op).exp = s.exp := rfl
@[simp] theorem State.openWindow_mod (op : BitVec 2) : (s.openWindow op).mod = s.mod := rfl
@[simp] theorem State.openWindow_prod (op : BitVec 2) : (s.openWindow op).prod = s.prod := rfl
@[simp] theorem State.openWindow_idx (op : BitVec 2) : (s.openWindow op).idx = s.idx := rfl
@[simp] theorem State.openWindow_acc (op : BitVec 2) : (s.openWindow op).acc = s.acc := rfl
@[simp] theorem State.openWindow_flag (op : BitVec 2) : (s.openWindow op).flag = s.flag := rfl
@[simp] theorem State.openWindow_st (op : BitVec 2) : (s.openWindow op).st = s.st := rfl
@[simp] theorem State.openWindow_opr (op : BitVec 2) : (s.openWindow op).opr = op := rfl
@[simp] theorem State.openWindow_done (op : BitVec 2) : (s.openWindow op).done = s.done := rfl
@[simp] theorem State.openWindow_err (op : BitVec 2) : (s.openWindow op).err = s.err := rfl
@[simp] theorem State.openWindow_ecode (op : BitVec 2) : (s.openWindow op).ecode = s.ecode := rfl
@[simp] theorem State.openWindow_result (op : BitVec 2) : (s.openWindow op).result = s.result := rfl
@[simp] theorem State.openWindow_rtag (op : BitVec 2) : (s.openWindow op).rtag = s.rtag := rfl
@[simp] theorem State.openWindow_ibuf (op : BitVec 2) : (s.openWindow op).ibuf = s.ibuf := rfl
@[simp] theorem State.openWindow_cfg (op : BitVec 2) : (s.openWindow op).cfg = s.cfg := rfl
@[simp] theorem State.openWindow_trig (op : BitVec 2) : (s.openWindow op).trig = true := rfl
@[simp] theorem State.openWindow_trace (op : BitVec 2) : (s.openWindow op).trace = [.trigRise] := rfl
@[simp] theorem State.openWindow_ibufw (op : BitVec 2) : (s.openWindow op).ibufw = s.ibufw := rfl
@[simp] theorem State.openWindow_inputs (op : BitVec 2) : (s.openWindow op).inputs = s.inputs := rfl
@[simp] theorem State.openWindow_reads (op : BitVec 2) : (s.openWindow op).reads = s.reads := rfl
@[simp] theorem State.openWindow_epoch (op : BitVec 2) : (s.openWindow op).epoch = s.epoch := rfl

/-! ### State.closeWindow -/

@[simp] theorem State.closeWindow_res : s.closeWindow.res = s.res := rfl
@[simp] theorem State.closeWindow_base : s.closeWindow.base = s.base := rfl
@[simp] theorem State.closeWindow_exp : s.closeWindow.exp = s.exp := rfl
@[simp] theorem State.closeWindow_mod : s.closeWindow.mod = s.mod := rfl
@[simp] theorem State.closeWindow_prod : s.closeWindow.prod = s.prod := rfl
@[simp] theorem State.closeWindow_idx : s.closeWindow.idx = s.idx := rfl
@[simp] theorem State.closeWindow_acc : s.closeWindow.acc = s.acc := rfl
@[simp] theorem State.closeWindow_flag : s.closeWindow.flag = s.flag := rfl
@[simp] theorem State.closeWindow_st : s.closeWindow.st = s.st := rfl
@[simp] theorem State.closeWindow_opr : s.closeWindow.opr = s.opr := rfl
@[simp] theorem State.closeWindow_done : s.closeWindow.done = s.done := rfl
@[simp] theorem State.closeWindow_err : s.closeWindow.err = s.err := rfl
@[simp] theorem State.closeWindow_ecode : s.closeWindow.ecode = s.ecode := rfl
@[simp] theorem State.closeWindow_result : s.closeWindow.result = s.result := rfl
@[simp] theorem State.closeWindow_rtag : s.closeWindow.rtag = s.rtag := rfl
@[simp] theorem State.closeWindow_ibuf : s.closeWindow.ibuf = s.ibuf := rfl
@[simp] theorem State.closeWindow_cfg : s.closeWindow.cfg = s.cfg := rfl
@[simp] theorem State.closeWindow_trig : s.closeWindow.trig = false := rfl
@[simp] theorem State.closeWindow_trace : s.closeWindow.trace = s.trace ++ [.trigFall] := rfl
@[simp] theorem State.closeWindow_ibufw : s.closeWindow.ibufw = 0 := rfl
@[simp] theorem State.closeWindow_inputs : s.closeWindow.inputs = s.inputs := rfl
@[simp] theorem State.closeWindow_reads : s.closeWindow.reads = s.reads := rfl
@[simp] theorem State.closeWindow_epoch : s.closeWindow.epoch = s.epoch + 1 := rfl

/-! ### State.afterRst -/

@[simp] theorem State.afterRst_res : s.afterRst.res = (Config.afterReset s.epoch).res := rfl
@[simp] theorem State.afterRst_base : s.afterRst.base = (Config.afterReset s.epoch).base := rfl
@[simp] theorem State.afterRst_exp : s.afterRst.exp = (Config.afterReset s.epoch).exp := rfl
@[simp] theorem State.afterRst_mod : s.afterRst.mod = (Config.afterReset s.epoch).mod := rfl
@[simp] theorem State.afterRst_prod : s.afterRst.prod = (Config.afterReset s.epoch).prod := rfl
@[simp] theorem State.afterRst_idx : s.afterRst.idx = (Config.afterReset s.epoch).idx := rfl
@[simp] theorem State.afterRst_acc : s.afterRst.acc = (Config.afterReset s.epoch).acc := rfl
@[simp] theorem State.afterRst_flag : s.afterRst.flag = (Config.afterReset s.epoch).flag := rfl
@[simp] theorem State.afterRst_st : s.afterRst.st = .idle := rfl
@[simp] theorem State.afterRst_opr : s.afterRst.opr = (Config.afterReset s.epoch).opr := rfl
@[simp] theorem State.afterRst_done : s.afterRst.done = false := rfl
@[simp] theorem State.afterRst_err : s.afterRst.err = false := rfl
@[simp] theorem State.afterRst_ecode : s.afterRst.ecode = .none := rfl
@[simp] theorem State.afterRst_result : s.afterRst.result = (Config.afterReset s.epoch).result := rfl
@[simp] theorem State.afterRst_rtag : s.afterRst.rtag = (Config.afterReset s.epoch).rtag := rfl
@[simp] theorem State.afterRst_ibuf : s.afterRst.ibuf = [] := rfl
@[simp] theorem State.afterRst_cfg : s.afterRst.cfg = s.cfg := rfl
@[simp] theorem State.afterRst_trig : s.afterRst.trig = false := rfl
@[simp] theorem State.afterRst_trace : s.afterRst.trace = [] := rfl
@[simp] theorem State.afterRst_ibufw : s.afterRst.ibufw = 0 := rfl
@[simp] theorem State.afterRst_inputs : s.afterRst.inputs = s.inputs := rfl
@[simp] theorem State.afterRst_reads : s.afterRst.reads = s.reads := rfl
@[simp] theorem State.afterRst_epoch : s.afterRst.epoch = s.epoch + 1 := rfl

/-! ### State.publish -/

@[simp] theorem State.publish_res (r tag : Byte) : (s.publish r tag).res = s.res := rfl
@[simp] theorem State.publish_base (r tag : Byte) : (s.publish r tag).base = s.base := rfl
@[simp] theorem State.publish_exp (r tag : Byte) : (s.publish r tag).exp = s.exp := rfl
@[simp] theorem State.publish_mod (r tag : Byte) : (s.publish r tag).mod = s.mod := rfl
@[simp] theorem State.publish_prod (r tag : Byte) : (s.publish r tag).prod = s.prod := rfl
@[simp] theorem State.publish_idx (r tag : Byte) : (s.publish r tag).idx = s.idx := rfl
@[simp] theorem State.publish_acc (r tag : Byte) : (s.publish r tag).acc = s.acc := rfl
@[simp] theorem State.publish_flag (r tag : Byte) : (s.publish r tag).flag = s.flag := rfl
@[simp] theorem State.publish_st (r tag : Byte) : (s.publish r tag).st = s.st := rfl
@[simp] theorem State.publish_opr (r tag : Byte) : (s.publish r tag).opr = s.opr := rfl
@[simp] theorem State.publish_done (r tag : Byte) : (s.publish r tag).done = true := rfl
@[simp] theorem State.publish_err (r tag : Byte) : (s.publish r tag).err = s.err := rfl
@[simp] theorem State.publish_ecode (r tag : Byte) : (s.publish r tag).ecode = s.ecode := rfl
@[simp] theorem State.publish_result (r tag : Byte) : (s.publish r tag).result = r := rfl
@[simp] theorem State.publish_rtag (r tag : Byte) : (s.publish r tag).rtag = tag := rfl
@[simp] theorem State.publish_ibuf (r tag : Byte) : (s.publish r tag).ibuf = s.ibuf := rfl
@[simp] theorem State.publish_cfg (r tag : Byte) : (s.publish r tag).cfg = s.cfg := rfl
@[simp] theorem State.publish_trig (r tag : Byte) : (s.publish r tag).trig = s.trig := rfl
@[simp] theorem State.publish_trace (r tag : Byte) : (s.publish r tag).trace = s.trace := rfl
@[simp] theorem State.publish_ibufw (r tag : Byte) : (s.publish r tag).ibufw = s.ibufw := rfl
@[simp] theorem State.publish_inputs (r tag : Byte) : (s.publish r tag).inputs = s.inputs := rfl
@[simp] theorem State.publish_reads (r tag : Byte) : (s.publish r tag).reads = s.reads := rfl
@[simp] theorem State.publish_epoch (r tag : Byte) : (s.publish r tag).epoch = s.epoch := rfl

/-! ### State.loadEngine -/

@[simp] theorem State.loadEngine_res (o : ExpOperands) : (s.loadEngine o).res = 0x01 := rfl
@[simp] theorem State.loadEngine_base (o : ExpOperands) : (s.loadEngine o).base = o.msg := rfl
@[simp] theorem State.loadEngine_exp (o : ExpOperands) : (s.loadEngine o).exp = o.ex := rfl
@[simp] theorem State.loadEngine_mod (o : ExpOperands) : (s.loadEngine o).mod = o.md := rfl
@[simp] theorem State.loadEngine_prod (o : ExpOperands) : (s.loadEngine o).prod = s.prod := rfl
@[simp] theorem State.loadEngine_idx (o : ExpOperands) : (s.loadEngine o).idx = s.idx := rfl
@[simp] theorem State.loadEngine_acc (o : ExpOperands) : (s.loadEngine o).acc = s.acc := rfl
@[simp] theorem State.loadEngine_flag (o : ExpOperands) : (s.loadEngine o).flag = s.flag := rfl
@[simp] theorem State.loadEngine_st (o : ExpOperands) : (s.loadEngine o).st = .expChk := rfl
@[simp] theorem State.loadEngine_opr (o : ExpOperands) : (s.loadEngine o).opr = s.opr := rfl
@[simp] theorem State.loadEngine_done (o : ExpOperands) : (s.loadEngine o).done = s.done := rfl
@[simp] theorem State.loadEngine_err (o : ExpOperands) : (s.loadEngine o).err = s.err := rfl
@[simp] theorem State.loadEngine_ecode (o : ExpOperands) : (s.loadEngine o).ecode = s.ecode := rfl
@[simp] theorem State.loadEngine_result (o : ExpOperands) : (s.loadEngine o).result = s.result := rfl
@[simp] theorem State.loadEngine_rtag (o : ExpOperands) : (s.loadEngine o).rtag = s.rtag := rfl
@[simp] theorem State.loadEngine_ibuf (o : ExpOperands) : (s.loadEngine o).ibuf = s.ibuf := rfl
@[simp] theorem State.loadEngine_cfg (o : ExpOperands) : (s.loadEngine o).cfg = s.cfg := rfl
@[simp] theorem State.loadEngine_trig (o : ExpOperands) : (s.loadEngine o).trig = s.trig := rfl
@[simp] theorem State.loadEngine_trace (o : ExpOperands) : (s.loadEngine o).trace = s.trace := rfl
@[simp] theorem State.loadEngine_ibufw (o : ExpOperands) : (s.loadEngine o).ibufw = s.ibufw := rfl
@[simp] theorem State.loadEngine_inputs (o : ExpOperands) : (s.loadEngine o).inputs = s.inputs := rfl
@[simp] theorem State.loadEngine_reads (o : ExpOperands) : (s.loadEngine o).reads = s.reads := rfl
@[simp] theorem State.loadEngine_epoch (o : ExpOperands) : (s.loadEngine o).epoch = s.epoch := rfl

/-! ### State.multiply -/

@[simp] theorem State.multiply_res : s.multiply.res = remainder (product s.res s.base) s.mod := rfl
@[simp] theorem State.multiply_base : s.multiply.base = s.base := rfl
@[simp] theorem State.multiply_exp : s.multiply.exp = s.exp := rfl
@[simp] theorem State.multiply_mod : s.multiply.mod = s.mod := rfl
@[simp] theorem State.multiply_prod : s.multiply.prod = product s.res s.base := rfl
@[simp] theorem State.multiply_idx : s.multiply.idx = s.idx := rfl
@[simp] theorem State.multiply_acc : s.multiply.acc = s.acc := rfl
@[simp] theorem State.multiply_flag : s.multiply.flag = s.flag := rfl
@[simp] theorem State.multiply_st : s.multiply.st = s.st := rfl
@[simp] theorem State.multiply_opr : s.multiply.opr = s.opr := rfl
@[simp] theorem State.multiply_done : s.multiply.done = s.done := rfl
@[simp] theorem State.multiply_err : s.multiply.err = s.err := rfl
@[simp] theorem State.multiply_ecode : s.multiply.ecode = s.ecode := rfl
@[simp] theorem State.multiply_result : s.multiply.result = s.result := rfl
@[simp] theorem State.multiply_rtag : s.multiply.rtag = s.rtag := rfl
@[simp] theorem State.multiply_ibuf : s.multiply.ibuf = s.ibuf := rfl
@[simp] theorem State.multiply_cfg : s.multiply.cfg = s.cfg := rfl
@[simp] theorem State.multiply_trig : s.multiply.trig = s.trig := rfl
@[simp] theorem State.multiply_trace : s.multiply.trace = s.trace := rfl
@[simp] theorem State.multiply_ibufw : s.multiply.ibufw = s.ibufw := rfl
@[simp] theorem State.multiply_inputs : s.multiply.inputs = s.inputs := rfl
@[simp] theorem State.multiply_reads : s.multiply.reads = s.reads := rfl
@[simp] theorem State.multiply_epoch : s.multiply.epoch = s.epoch := rfl

/-! ### State.square -/

@[simp] theorem State.square_res : s.square.res = s.res := rfl
@[simp] theorem State.square_base : s.square.base = remainder (product s.base s.base) s.mod := rfl
@[simp] theorem State.square_exp : s.square.exp = s.exp := rfl
@[simp] theorem State.square_mod : s.square.mod = s.mod := rfl
@[simp] theorem State.square_prod : s.square.prod = product s.base s.base := rfl
@[simp] theorem State.square_idx : s.square.idx = s.idx := rfl
@[simp] theorem State.square_acc : s.square.acc = s.acc := rfl
@[simp] theorem State.square_flag : s.square.flag = s.flag := rfl
@[simp] theorem State.square_st : s.square.st = s.st := rfl
@[simp] theorem State.square_opr : s.square.opr = s.opr := rfl
@[simp] theorem State.square_done : s.square.done = s.done := rfl
@[simp] theorem State.square_err : s.square.err = s.err := rfl
@[simp] theorem State.square_ecode : s.square.ecode = s.ecode := rfl
@[simp] theorem State.square_result : s.square.result = s.result := rfl
@[simp] theorem State.square_rtag : s.square.rtag = s.rtag := rfl
@[simp] theorem State.square_ibuf : s.square.ibuf = s.ibuf := rfl
@[simp] theorem State.square_cfg : s.square.cfg = s.cfg := rfl
@[simp] theorem State.square_trig : s.square.trig = s.trig := rfl
@[simp] theorem State.square_trace : s.square.trace = s.trace := rfl
@[simp] theorem State.square_ibufw : s.square.ibufw = s.ibufw := rfl
@[simp] theorem State.square_inputs : s.square.inputs = s.inputs := rfl
@[simp] theorem State.square_reads : s.square.reads = s.reads := rfl
@[simp] theorem State.square_epoch : s.square.epoch = s.epoch := rfl

/-! ### State.shiftExp -/

@[simp] theorem State.shiftExp_res : s.shiftExp.res = s.res := rfl
@[simp] theorem State.shiftExp_base : s.shiftExp.base = s.base := rfl
@[simp] theorem State.shiftExp_exp : s.shiftExp.exp = shiftRightOne s.exp := rfl
@[simp] theorem State.shiftExp_mod : s.shiftExp.mod = s.mod := rfl
@[simp] theorem State.shiftExp_prod : s.shiftExp.prod = s.prod := rfl
@[simp] theorem State.shiftExp_idx : s.shiftExp.idx = s.idx := rfl
@[simp] theorem State.shiftExp_acc : s.shiftExp.acc = s.acc := rfl
@[simp] theorem State.shiftExp_flag : s.shiftExp.flag = s.flag := rfl
@[simp] theorem State.shiftExp_st : s.shiftExp.st = s.st := rfl
@[simp] theorem State.shiftExp_opr : s.shiftExp.opr = s.opr := rfl
@[simp] theorem State.shiftExp_done : s.shiftExp.done = s.done := rfl
@[simp] theorem State.shiftExp_err : s.shiftExp.err = s.err := rfl
@[simp] theorem State.shiftExp_ecode : s.shiftExp.ecode = s.ecode := rfl
@[simp] theorem State.shiftExp_result : s.shiftExp.result = s.result := rfl
@[simp] theorem State.shiftExp_rtag : s.shiftExp.rtag = s.rtag := rfl
@[simp] theorem State.shiftExp_ibuf : s.shiftExp.ibuf = s.ibuf := rfl
@[simp] theorem State.shiftExp_cfg : s.shiftExp.cfg = s.cfg := rfl
@[simp] theorem State.shiftExp_trig : s.shiftExp.trig = s.trig := rfl
@[simp] theorem State.shiftExp_trace : s.shiftExp.trace = s.trace := rfl
@[simp] theorem State.shiftExp_ibufw : s.shiftExp.ibufw = s.ibufw := rfl
@[simp] theorem State.shiftExp_inputs : s.shiftExp.inputs = s.inputs := rfl
@[simp] theorem State.shiftExp_reads : s.shiftExp.reads = s.reads := rfl
@[simp] theorem State.shiftExp_epoch : s.shiftExp.epoch = s.epoch := rfl

/-! ### State.startEarlyExit -/

@[simp] theorem State.startEarlyExit_res : s.startEarlyExit.res = s.res := rfl
@[simp] theorem State.startEarlyExit_base : s.startEarlyExit.base = s.base := rfl
@[simp] theorem State.startEarlyExit_exp : s.startEarlyExit.exp = s.exp := rfl
@[simp] theorem State.startEarlyExit_mod : s.startEarlyExit.mod = s.mod := rfl
@[simp] theorem State.startEarlyExit_prod : s.startEarlyExit.prod = s.prod := rfl
@[simp] theorem State.startEarlyExit_idx : s.startEarlyExit.idx = 0 := rfl
@[simp] theorem State.startEarlyExit_acc : s.startEarlyExit.acc = s.acc := rfl
@[simp] theorem State.startEarlyExit_flag : s.startEarlyExit.flag = flagCorrect := rfl
@[simp] theorem State.startEarlyExit_st : s.startEarlyExit.st = .cmpaLoop := rfl
@[simp] theorem State.startEarlyExit_opr : s.startEarlyExit.opr = s.opr := rfl
@[simp] theorem State.startEarlyExit_done : s.startEarlyExit.done = s.done := rfl
@[simp] theorem State.startEarlyExit_err : s.startEarlyExit.err = s.err := rfl
@[simp] theorem State.startEarlyExit_ecode : s.startEarlyExit.ecode = s.ecode := rfl
@[simp] theorem State.startEarlyExit_result : s.startEarlyExit.result = s.result := rfl
@[simp] theorem State.startEarlyExit_rtag : s.startEarlyExit.rtag = s.rtag := rfl
@[simp] theorem State.startEarlyExit_ibuf : s.startEarlyExit.ibuf = s.ibuf := rfl
@[simp] theorem State.startEarlyExit_cfg : s.startEarlyExit.cfg = s.cfg := rfl
@[simp] theorem State.startEarlyExit_trig : s.startEarlyExit.trig = s.trig := rfl
@[simp] theorem State.startEarlyExit_trace : s.startEarlyExit.trace = s.trace := rfl
@[simp] theorem State.startEarlyExit_ibufw : s.startEarlyExit.ibufw = s.ibufw := rfl
@[simp] theorem State.startEarlyExit_inputs : s.startEarlyExit.inputs = s.inputs := rfl
@[simp] theorem State.startEarlyExit_reads : s.startEarlyExit.reads = s.reads := rfl
@[simp] theorem State.startEarlyExit_epoch : s.startEarlyExit.epoch = s.epoch := rfl

/-! ### State.startUniform -/

@[simp] theorem State.startUniform_res : s.startUniform.res = s.res := rfl
@[simp] theorem State.startUniform_base : s.startUniform.base = s.base := rfl
@[simp] theorem State.startUniform_exp : s.startUniform.exp = s.exp := rfl
@[simp] theorem State.startUniform_mod : s.startUniform.mod = s.mod := rfl
@[simp] theorem State.startUniform_prod : s.startUniform.prod = s.prod := rfl
@[simp] theorem State.startUniform_idx : s.startUniform.idx = 0 := rfl
@[simp] theorem State.startUniform_acc : s.startUniform.acc = 0x00 := rfl
@[simp] theorem State.startUniform_flag : s.startUniform.flag = s.flag := rfl
@[simp] theorem State.startUniform_st : s.startUniform.st = .cmpbLoop := rfl
@[simp] theorem State.startUniform_opr : s.startUniform.opr = s.opr := rfl
@[simp] theorem State.startUniform_done : s.startUniform.done = s.done := rfl
@[simp] theorem State.startUniform_err : s.startUniform.err = s.err := rfl
@[simp] theorem State.startUniform_ecode : s.startUniform.ecode = s.ecode := rfl
@[simp] theorem State.startUniform_result : s.startUniform.result = s.result := rfl
@[simp] theorem State.startUniform_rtag : s.startUniform.rtag = s.rtag := rfl
@[simp] theorem State.startUniform_ibuf : s.startUniform.ibuf = s.ibuf := rfl
@[simp] theorem State.startUniform_cfg : s.startUniform.cfg = s.cfg := rfl
@[simp] theorem State.startUniform_trig : s.startUniform.trig = s.trig := rfl
@[simp] theorem State.startUniform_trace : s.startUniform.trace = s.trace := rfl
@[simp] theorem State.startUniform_ibufw : s.startUniform.ibufw = s.ibufw := rfl
@[simp] theorem State.startUniform_inputs : s.startUniform.inputs = s.inputs := rfl
@[simp] theorem State.startUniform_reads : s.startUniform.reads = s.reads := rfl
@[simp] theorem State.startUniform_epoch : s.startUniform.epoch = s.epoch := rfl

/-! ### State.markIncorrect -/

@[simp] theorem State.markIncorrect_res : s.markIncorrect.res = s.res := rfl
@[simp] theorem State.markIncorrect_base : s.markIncorrect.base = s.base := rfl
@[simp] theorem State.markIncorrect_exp : s.markIncorrect.exp = s.exp := rfl
@[simp] theorem State.markIncorrect_mod : s.markIncorrect.mod = s.mod := rfl
@[simp] theorem State.markIncorrect_prod : s.markIncorrect.prod = s.prod := rfl
@[simp] theorem State.markIncorrect_idx : s.markIncorrect.idx = s.idx := rfl
@[simp] theorem State.markIncorrect_acc : s.markIncorrect.acc = s.acc := rfl
@[simp] theorem State.markIncorrect_flag : s.markIncorrect.flag = flagIncorrect := rfl
@[simp] theorem State.markIncorrect_st : s.markIncorrect.st = s.st := rfl
@[simp] theorem State.markIncorrect_opr : s.markIncorrect.opr = s.opr := rfl
@[simp] theorem State.markIncorrect_done : s.markIncorrect.done = s.done := rfl
@[simp] theorem State.markIncorrect_err : s.markIncorrect.err = s.err := rfl
@[simp] theorem State.markIncorrect_ecode : s.markIncorrect.ecode = s.ecode := rfl
@[simp] theorem State.markIncorrect_result : s.markIncorrect.result = s.result := rfl
@[simp] theorem State.markIncorrect_rtag : s.markIncorrect.rtag = s.rtag := rfl
@[simp] theorem State.markIncorrect_ibuf : s.markIncorrect.ibuf = s.ibuf := rfl
@[simp] theorem State.markIncorrect_cfg : s.markIncorrect.cfg = s.cfg := rfl
@[simp] theorem State.markIncorrect_trig : s.markIncorrect.trig = s.trig := rfl
@[simp] theorem State.markIncorrect_trace : s.markIncorrect.trace = s.trace := rfl
@[simp] theorem State.markIncorrect_ibufw : s.markIncorrect.ibufw = s.ibufw := rfl
@[simp] theorem State.markIncorrect_inputs : s.markIncorrect.inputs = s.inputs := rfl
@[simp] theorem State.markIncorrect_reads : s.markIncorrect.reads = s.reads := rfl
@[simp] theorem State.markIncorrect_epoch : s.markIncorrect.epoch = s.epoch := rfl

/-! ### State.nextIndex -/

@[simp] theorem State.nextIndex_res : s.nextIndex.res = s.res := rfl
@[simp] theorem State.nextIndex_base : s.nextIndex.base = s.base := rfl
@[simp] theorem State.nextIndex_exp : s.nextIndex.exp = s.exp := rfl
@[simp] theorem State.nextIndex_mod : s.nextIndex.mod = s.mod := rfl
@[simp] theorem State.nextIndex_prod : s.nextIndex.prod = s.prod := rfl
@[simp] theorem State.nextIndex_idx : s.nextIndex.idx = s.idx + 1 := rfl
@[simp] theorem State.nextIndex_acc : s.nextIndex.acc = s.acc := rfl
@[simp] theorem State.nextIndex_flag : s.nextIndex.flag = s.flag := rfl
@[simp] theorem State.nextIndex_st : s.nextIndex.st = s.st := rfl
@[simp] theorem State.nextIndex_opr : s.nextIndex.opr = s.opr := rfl
@[simp] theorem State.nextIndex_done : s.nextIndex.done = s.done := rfl
@[simp] theorem State.nextIndex_err : s.nextIndex.err = s.err := rfl
@[simp] theorem State.nextIndex_ecode : s.nextIndex.ecode = s.ecode := rfl
@[simp] theorem State.nextIndex_result : s.nextIndex.result = s.result := rfl
@[simp] theorem State.nextIndex_rtag : s.nextIndex.rtag = s.rtag := rfl
@[simp] theorem State.nextIndex_ibuf : s.nextIndex.ibuf = s.ibuf := rfl
@[simp] theorem State.nextIndex_cfg : s.nextIndex.cfg = s.cfg := rfl
@[simp] theorem State.nextIndex_trig : s.nextIndex.trig = s.trig := rfl
@[simp] theorem State.nextIndex_trace : s.nextIndex.trace = s.trace := rfl
@[simp] theorem State.nextIndex_ibufw : s.nextIndex.ibufw = s.ibufw := rfl
@[simp] theorem State.nextIndex_inputs : s.nextIndex.inputs = s.inputs := rfl
@[simp] theorem State.nextIndex_reads : s.nextIndex.reads = s.reads := rfl
@[simp] theorem State.nextIndex_epoch : s.nextIndex.epoch = s.epoch := rfl

/-! ### State.accumulate -/

@[simp] theorem State.accumulate_res (r a : Byte) : (s.accumulate r a).res = s.res := rfl
@[simp] theorem State.accumulate_base (r a : Byte) : (s.accumulate r a).base = s.base := rfl
@[simp] theorem State.accumulate_exp (r a : Byte) : (s.accumulate r a).exp = s.exp := rfl
@[simp] theorem State.accumulate_mod (r a : Byte) : (s.accumulate r a).mod = s.mod := rfl
@[simp] theorem State.accumulate_prod (r a : Byte) : (s.accumulate r a).prod = s.prod := rfl
@[simp] theorem State.accumulate_idx (r a : Byte) : (s.accumulate r a).idx = s.idx := rfl
@[simp] theorem State.accumulate_acc (r a : Byte) : (s.accumulate r a).acc = s.acc ||| (r ^^^ a) := rfl
@[simp] theorem State.accumulate_flag (r a : Byte) : (s.accumulate r a).flag = s.flag := rfl
@[simp] theorem State.accumulate_st (r a : Byte) : (s.accumulate r a).st = s.st := rfl
@[simp] theorem State.accumulate_opr (r a : Byte) : (s.accumulate r a).opr = s.opr := rfl
@[simp] theorem State.accumulate_done (r a : Byte) : (s.accumulate r a).done = s.done := rfl
@[simp] theorem State.accumulate_err (r a : Byte) : (s.accumulate r a).err = s.err := rfl
@[simp] theorem State.accumulate_ecode (r a : Byte) : (s.accumulate r a).ecode = s.ecode := rfl
@[simp] theorem State.accumulate_result (r a : Byte) : (s.accumulate r a).result = s.result := rfl
@[simp] theorem State.accumulate_rtag (r a : Byte) : (s.accumulate r a).rtag = s.rtag := rfl
@[simp] theorem State.accumulate_ibuf (r a : Byte) : (s.accumulate r a).ibuf = s.ibuf := rfl
@[simp] theorem State.accumulate_cfg (r a : Byte) : (s.accumulate r a).cfg = s.cfg := rfl
@[simp] theorem State.accumulate_trig (r a : Byte) : (s.accumulate r a).trig = s.trig := rfl
@[simp] theorem State.accumulate_trace (r a : Byte) : (s.accumulate r a).trace = s.trace := rfl
@[simp] theorem State.accumulate_ibufw (r a : Byte) : (s.accumulate r a).ibufw = s.ibufw := rfl
@[simp] theorem State.accumulate_inputs (r a : Byte) : (s.accumulate r a).inputs = s.inputs := rfl
@[simp] theorem State.accumulate_reads (r a : Byte) : (s.accumulate r a).reads = s.reads := rfl
@[simp] theorem State.accumulate_epoch (r a : Byte) : (s.accumulate r a).epoch = s.epoch := rfl

/-! ### State.hostRead -/

@[simp] theorem State.hostRead_res (a : HostAddr) : (s.hostRead a).res = s.res := rfl
@[simp] theorem State.hostRead_base (a : HostAddr) : (s.hostRead a).base = s.base := rfl
@[simp] theorem State.hostRead_exp (a : HostAddr) : (s.hostRead a).exp = s.exp := rfl
@[simp] theorem State.hostRead_mod (a : HostAddr) : (s.hostRead a).mod = s.mod := rfl
@[simp] theorem State.hostRead_prod (a : HostAddr) : (s.hostRead a).prod = s.prod := rfl
@[simp] theorem State.hostRead_idx (a : HostAddr) : (s.hostRead a).idx = s.idx := rfl
@[simp] theorem State.hostRead_acc (a : HostAddr) : (s.hostRead a).acc = s.acc := rfl
@[simp] theorem State.hostRead_flag (a : HostAddr) : (s.hostRead a).flag = s.flag := rfl
@[simp] theorem State.hostRead_st (a : HostAddr) : (s.hostRead a).st = s.st := rfl
@[simp] theorem State.hostRead_opr (a : HostAddr) : (s.hostRead a).opr = s.opr := rfl
@[simp] theorem State.hostRead_done (a : HostAddr) : (s.hostRead a).done = s.done := rfl
@[simp] theorem State.hostRead_err (a : HostAddr) : (s.hostRead a).err = s.err := rfl
@[simp] theorem State.hostRead_ecode (a : HostAddr) : (s.hostRead a).ecode = s.ecode := rfl
@[simp] theorem State.hostRead_result (a : HostAddr) : (s.hostRead a).result = s.result := rfl
@[simp] theorem State.hostRead_rtag (a : HostAddr) : (s.hostRead a).rtag = s.rtag := rfl
@[simp] theorem State.hostRead_ibuf (a : HostAddr) : (s.hostRead a).ibuf = s.ibuf := rfl
@[simp] theorem State.hostRead_cfg (a : HostAddr) : (s.hostRead a).cfg = s.cfg := rfl
@[simp] theorem State.hostRead_trig (a : HostAddr) : (s.hostRead a).trig = s.trig := rfl
@[simp] theorem State.hostRead_trace (a : HostAddr) : (s.hostRead a).trace = s.trace := rfl
@[simp] theorem State.hostRead_ibufw (a : HostAddr) : (s.hostRead a).ibufw = s.ibufw := rfl
@[simp] theorem State.hostRead_inputs (a : HostAddr) : (s.hostRead a).inputs = s.inputs := rfl
@[simp] theorem State.hostRead_reads (a : HostAddr) : (s.hostRead a).reads = s.reads ++ [(a, s.portByte a)] := rfl
@[simp] theorem State.hostRead_epoch (a : HostAddr) : (s.hostRead a).epoch = s.epoch := rfl

/-! ### State.prepend -/

@[simp] theorem State.prepend_res (xs : List Input) : (s.prepend xs).res = s.res := rfl
@[simp] theorem State.prepend_base (xs : List Input) : (s.prepend xs).base = s.base := rfl
@[simp] theorem State.prepend_exp (xs : List Input) : (s.prepend xs).exp = s.exp := rfl
@[simp] theorem State.prepend_mod (xs : List Input) : (s.prepend xs).mod = s.mod := rfl
@[simp] theorem State.prepend_prod (xs : List Input) : (s.prepend xs).prod = s.prod := rfl
@[simp] theorem State.prepend_idx (xs : List Input) : (s.prepend xs).idx = s.idx := rfl
@[simp] theorem State.prepend_acc (xs : List Input) : (s.prepend xs).acc = s.acc := rfl
@[simp] theorem State.prepend_flag (xs : List Input) : (s.prepend xs).flag = s.flag := rfl
@[simp] theorem State.prepend_st (xs : List Input) : (s.prepend xs).st = s.st := rfl
@[simp] theorem State.prepend_opr (xs : List Input) : (s.prepend xs).opr = s.opr := rfl
@[simp] theorem State.prepend_done (xs : List Input) : (s.prepend xs).done = s.done := rfl
@[simp] theorem State.prepend_err (xs : List Input) : (s.prepend xs).err = s.err := rfl
@[simp] theorem State.prepend_ecode (xs : List Input) : (s.prepend xs).ecode = s.ecode := rfl
@[simp] theorem State.prepend_result (xs : List Input) : (s.prepend xs).result = s.result := rfl
@[simp] theorem State.prepend_rtag (xs : List Input) : (s.prepend xs).rtag = s.rtag := rfl
@[simp] theorem State.prepend_ibuf (xs : List Input) : (s.prepend xs).ibuf = s.ibuf := rfl
@[simp] theorem State.prepend_cfg (xs : List Input) : (s.prepend xs).cfg = s.cfg := rfl
@[simp] theorem State.prepend_trig (xs : List Input) : (s.prepend xs).trig = s.trig := rfl
@[simp] theorem State.prepend_trace (xs : List Input) : (s.prepend xs).trace = s.trace := rfl
@[simp] theorem State.prepend_ibufw (xs : List Input) : (s.prepend xs).ibufw = s.ibufw := rfl
@[simp] theorem State.prepend_inputs (xs : List Input) : (s.prepend xs).inputs = xs ++ s.inputs := rfl
@[simp] theorem State.prepend_reads (xs : List Input) : (s.prepend xs).reads = s.reads := rfl
@[simp] theorem State.prepend_epoch (xs : List Input) : (s.prepend xs).epoch = s.epoch := rfl

end Sys2Proof.Machine
end

