-- ==== Sys2Proof/Laws/Steps.lean ====
section
/-! SUPPORT. What each shared operation and each core step can do, said once. Proofs cite these instead
of unfolding the operation. -/

namespace Sys2Proof.Machine

/-! ### Acceptance -/

theorem State.accept_busy {s : State} (h : s.busy = true) (op : BitVec 2) (init : State → State) :
    s.accept op init = s := by simp [State.accept, h]

theorem State.accept_idle {s : State} (h : s.busy = false) (op : BitVec 2) (init : State → State) :
    s.accept op init = init (s.clearOutcome.openWindow op) := by simp [State.accept, h]

theorem coreByte_openWindow (s : State) (op : BitVec 2) (i : Nat) :
    ((s.clearOutcome).openWindow op).coreByte i = s.coreByte i := rfl

theorem exec_busy {s : State} (h : s.busy = true) (i : Instr) : exec i s = .next s := by
  cases i
  · exact congrArg Host.Outcome.next (State.accept_busy h _ _)
  · exact congrArg Host.Outcome.next (State.accept_busy h _ _)
  · exact congrArg Host.Outcome.next (State.accept_busy h _ _)
  · exact congrArg Host.Outcome.next (State.accept_busy h _ _)

/-- The state each command's acceptance leads to. -/
def accepted : Instr → State → State
  | .expf, s => ((s.clearOutcome).openWindow 0b00).loadEngine (fixedOperands s)
  | .expv, s => ((s.clearOutcome).openWindow 0b01).loadEngine (bufferOperands s)
  | .cmpe, s => ((s.clearOutcome).openWindow 0b10).startEarlyExit
  | .cmpu, s => ((s.clearOutcome).openWindow 0b11).startUniform

theorem exec_idle {s : State} (h : s.busy = false) (i : Instr) : exec i s = .next (accepted i s) := by
  cases i
  · exact congrArg Host.Outcome.next (State.accept_idle h _ _)
  · exact congrArg Host.Outcome.next (State.accept_idle h _ _)
  · exact congrArg Host.Outcome.next (State.accept_idle h _ _)
  · exact congrArg Host.Outcome.next (State.accept_idle h _ _)

/-! ### Core steps: one equation per case -/

theorem coreStep_idle {s : State} (h : s.st = .idle) : coreStep s = .next s := by
  simp [coreStep, h]

theorem coreStep_expChk_zero {s : State} (h : s.st = .expChk) (hm : s.mod = 0) :
    coreStep s = .next ((s.closeWindow.raise .modzero).goto .idle) := by
  simp [coreStep, h, stepExpChk, hm]

theorem coreStep_expChk_pos {s : State} (h : s.st = .expChk) (hm : s.mod ≠ 0) :
    coreStep s = .next (s.goto .expHead) := by
  simp only [coreStep, h, stepExpChk, if_neg hm]

theorem coreStep_expHead_end {s : State} (h : s.st = .expHead) (he : s.exp = 0) :
    coreStep s = .next (s.goto .fin) := by
  simp [coreStep, h, stepExpHead, he]

theorem coreStep_expHead_one {s : State} (h : s.st = .expHead) (he : s.exp ≠ 0)
    (hb : s.exp.getLsbD 0 = true) : coreStep s = .next (s.goto .expMul) := by
  simp only [coreStep, h, stepExpHead, if_neg he, hb, if_true]

theorem coreStep_expHead_zero {s : State} (h : s.st = .expHead) (he : s.exp ≠ 0)
    (hb : s.exp.getLsbD 0 = false) : coreStep s = .next (s.goto .expSqr) := by
  simp only [coreStep, h, stepExpHead, if_neg he, hb, Bool.false_eq_true, if_false]

theorem coreStep_expMul {s : State} (h : s.st = .expMul) (hm : s.mod ≠ 0) :
    coreStep s = .next ((s.multiply.emit .mul).goto .expSqr) := by
  simp only [coreStep, h, stepExpMul, if_neg hm]

theorem coreStep_expSqr {s : State} (h : s.st = .expSqr) (hm : s.mod ≠ 0) :
    coreStep s = .next ((s.square.emit .sqr).goto .expShr) := by
  simp only [coreStep, h, stepExpSqr, if_neg hm]

theorem coreStep_expShr {s : State} (h : s.st = .expShr) :
    coreStep s = .next ((s.shiftExp.emit .shr).goto .expHead) := by
  simp [coreStep, h, stepExpShr]

theorem coreStep_cmpaLoop_end {s : State} (h : s.st = .cmpaLoop) (hi : s.idx = 8) :
    coreStep s = .next (s.goto .fin) := by
  simp [coreStep, h, stepCmpaLoop, hi]

theorem idx_ne_of_lt {s : State} (h : s.idx.toNat < 8) : s.idx ≠ 8 := by
  intro he
  rw [he] at h
  exact absurd h (by decide)

theorem coreStep_cmpaLoop_index {s : State} (h : s.st = .cmpaLoop) (hi : s.idx.toNat < 8) :
    coreStep s = .next (s.compareA ⟨s.idx.toNat, hi⟩) := by
  simp only [coreStep, h, stepCmpaLoop, if_neg (idx_ne_of_lt hi), dif_pos hi]

theorem coreStep_cmpbLoop_end {s : State} (h : s.st = .cmpbLoop) (hi : s.idx = 8) :
    coreStep s = .next (s.goto .fin) := by
  simp [coreStep, h, stepCmpbLoop, hi]

theorem coreStep_cmpbLoop_index {s : State} (h : s.st = .cmpbLoop) (hi : s.idx.toNat < 8) :
    coreStep s = .next (s.compareB ⟨s.idx.toNat, hi⟩) := by
  simp only [coreStep, h, stepCmpbLoop, if_neg (idx_ne_of_lt hi), dif_pos hi]

theorem coreStep_fin {s : State} (h : s.st = .fin) :
    coreStep s = .next (((s.publish s.finalResult s.finalTag).closeWindow).goto .idle) := by
  simp [coreStep, h, stepFin]

theorem compareA_mismatch {s : State} {i : Fin 8} (h : s.coreByte i.val ≠ s.refByte i) :
    s.compareA i = ((s.emit (.cmp i)).markIncorrect).goto .fin := by
  simp [State.compareA, h]

theorem compareA_match {s : State} {i : Fin 8} (h : s.coreByte i.val = s.refByte i) :
    s.compareA i = ((s.emit (.cmp i)).nextIndex).goto .cmpaLoop := by
  simp [State.compareA, h]

/-- Everything a core step can do (40_invocation.md R126). -/
inductive CoreMove (s : State) : State → Prop where
  | rest (h : s.st = .idle) : CoreMove s s
  | reject (h : s.st = .expChk) (hm : s.mod = 0) :
      CoreMove s ((s.closeWindow.raise .modzero).goto .idle)
  | check (h : s.st = .expChk) (hm : s.mod ≠ 0) : CoreMove s (s.goto .expHead)
  | loopEnd (h : s.st = .expHead) (he : s.exp = 0) : CoreMove s (s.goto .fin)
  | bitOne (h : s.st = .expHead) (he : s.exp ≠ 0) (hb : s.exp.getLsbD 0 = true) :
      CoreMove s (s.goto .expMul)
  | bitZero (h : s.st = .expHead) (he : s.exp ≠ 0) (hb : s.exp.getLsbD 0 = false) :
      CoreMove s (s.goto .expSqr)
  | mul (h : s.st = .expMul) (hm : s.mod ≠ 0) : CoreMove s ((s.multiply.emit .mul).goto .expSqr)
  | sqr (h : s.st = .expSqr) (hm : s.mod ≠ 0) : CoreMove s ((s.square.emit .sqr).goto .expShr)
  | shr (h : s.st = .expShr) : CoreMove s ((s.shiftExp.emit .shr).goto .expHead)
  | aEnd (h : s.st = .cmpaLoop) (hi : s.idx = 8) : CoreMove s (s.goto .fin)
  | aMiss (h : s.st = .cmpaLoop) (i : Fin 8) (hi : s.idx.toNat = i.val)
      (hb : s.coreByte i.val ≠ s.refByte i) :
      CoreMove s (((s.emit (.cmp i)).markIncorrect).goto .fin)
  | aHit (h : s.st = .cmpaLoop) (i : Fin 8) (hi : s.idx.toNat = i.val)
      (hb : s.coreByte i.val = s.refByte i) :
      CoreMove s (((s.emit (.cmp i)).nextIndex).goto .cmpaLoop)
  | bEnd (h : s.st = .cmpbLoop) (hi : s.idx = 8) : CoreMove s (s.goto .fin)
  | bIndex (h : s.st = .cmpbLoop) (i : Fin 8) (hi : s.idx.toNat = i.val) :
      CoreMove s
        ((((s.emit (.cmp i)).accumulate (s.refByte i) (s.coreByte i.val)).nextIndex).goto .cmpbLoop)
  | fin (h : s.st = .fin) :
      CoreMove s (((s.publish s.finalResult s.finalTag).closeWindow).goto .idle)

/-- If a core step answers a next state, one of the moves above was made. -/
theorem coreStep_move {s t : State} (h : coreStep s = .next t) : CoreMove s t := by
  unfold coreStep at h
  split at h
  · next hs => cases h; exact .rest hs
  · next hs =>
    unfold stepExpChk at h
    split at h
    · next hm => cases h; exact .reject hs hm
    · next hm => cases h; exact .check hs hm
  · next hs =>
    unfold stepExpHead at h
    split at h
    · next he => cases h; exact .loopEnd hs he
    · next he =>
      split at h
      · next hb => cases h; exact .bitOne hs he hb
      · next hb => cases h; exact .bitZero hs he (by simpa using hb)
  · next hs =>
    unfold stepExpMul at h
    split at h
    · cases h
    · next hm => cases h; exact .mul hs hm
  · next hs =>
    unfold stepExpSqr at h
    split at h
    · cases h
    · next hm => cases h; exact .sqr hs hm
  · next hs => cases h; exact .shr hs
  · next hs =>
    unfold stepCmpaLoop at h
    split at h
    · next hi => cases h; exact .aEnd hs hi
    · split at h
      · next hi =>
        cases h
        by_cases hb : s.coreByte s.idx.toNat = s.refByte ⟨s.idx.toNat, hi⟩
        · rw [compareA_match (i := ⟨s.idx.toNat, hi⟩) hb]; exact .aHit hs _ rfl hb
        · rw [compareA_mismatch (i := ⟨s.idx.toNat, hi⟩) hb]; exact .aMiss hs _ rfl hb
      · cases h
  · next hs =>
    unfold stepCmpbLoop at h
    split at h
    · next hi => cases h; exact .bEnd hs hi
    · split at h
      · cases h; exact .bIndex hs _ rfl
      · cases h
  · next hs => cases h; exact .fin hs

/-! ### The port -/

theorem bufferIndex_eq_some {a : HostAddr} {i : Nat} (h : bufferIndex a = some i) :
    i < 10 ∧ a.toNat = 0x10 + i := by
  unfold bufferIndex at h
  split at h
  · next hr => cases h; omega
  · cases h

theorem bufferIndex_of_lt {a : HostAddr} {i : Nat} (hi : i < 10) (h : a.toNat = 0x10 + i) :
    bufferIndex a = some i := by
  unfold bufferIndex
  rw [if_pos (by omega), h]
  congr 1
  omega

/-- Everything a write to `CMD` can do (40_invocation.md R122). -/
theorem writeCommand_cases (s : State) (c : Byte) :
    (s.busy = true ∧ writeCommand s c = .next s) ∨
    (s.busy = false ∧ ∃ i, decode c = .ok i ∧ writeCommand s c = .next (accepted i s)) ∨
    (s.busy = false ∧ (∃ r, decode c = .error r) ∧
      writeCommand s c = .next (s.clearOutcome.raise .illcmd)) := by
  cases hb : s.busy
  · cases hd : decode c with
    | ok i => exact .inr (.inl ⟨rfl, i, rfl, by simp [writeCommand, hb, hd, exec_idle hb]⟩)
    | error r => cases r; exact .inr (.inr ⟨rfl, ⟨_, rfl⟩, by simp [writeCommand, hb, hd]⟩)
  · exact .inl ⟨rfl, by simp [writeCommand, hb]⟩

/-- Everything one step can do: the core moves, with or without an entry of its own, or the host or
the reset input does. -/
inductive Move (s : State) : State → Prop where
  | alone (h : s.inputs = []) {t : State} (m : CoreMove s t) : Move s t
  | turn {rest : List Input} (h : s.inputs = .core :: rest) {t : State}
      (m : CoreMove { s with inputs := rest } t) : Move s t
  | ignored {rest : List Input} {a : HostAddr} {v : Byte} (h : s.inputs = .wr a v :: rest)
      (hw : s.busy = true ∨ (a ≠ addrCmd ∧ bufferIndex a = none)) :
      Move s { s with inputs := rest }
  | stored {rest : List Input} {a : HostAddr} {v : Byte} {i : Nat} (h : s.inputs = .wr a v :: rest)
      (hb : s.busy = false) (hi : bufferIndex a = some i) :
      Move s (({ s with inputs := rest } : State).storeByte i v)
  | command {rest : List Input} {v : Byte} {i : Instr} (h : s.inputs = .wr addrCmd v :: rest)
      (hb : s.busy = false) (hd : decode v = .ok i) :
      Move s (accepted i { s with inputs := rest })
  | illegal {rest : List Input} {v : Byte} {r : Reject} (h : s.inputs = .wr addrCmd v :: rest)
      (hb : s.busy = false) (hd : decode v = .error r) :
      Move s ((({ s with inputs := rest } : State).clearOutcome).raise .illcmd)
  | read {rest : List Input} {a : HostAddr} (h : s.inputs = .rd a :: rest) :
      Move s (({ s with inputs := rest } : State).hostRead a)
  | reset {rest : List Input} (h : s.inputs = .rst :: rest) :
      Move s ({ s with inputs := rest } : State).afterRst
  | poll {rest : List Input} (h : s.inputs = .wait :: rest) :
      Move s (hostWait { s with inputs := rest })
  | answer {rest : List Input} (h : s.inputs = .answer :: rest) :
      Move s (hostAnswer { s with inputs := rest })

theorem hostWrite_move {s t : State} {rest : List Input} {a : HostAddr} {v : Byte}
    (hin : s.inputs = .wr a v :: rest) (h : hostWrite { s with inputs := rest } a v = .next t) :
    Move s t := by
  unfold hostWrite at h
  split at h
  · next ha =>
    subst ha
    rcases writeCommand_cases { s with inputs := rest } v with ⟨hb, hw⟩ | ⟨hb, i, hd, hw⟩ | ⟨hb, ⟨r, hd⟩, hw⟩
    · rw [hw] at h; cases h; exact .ignored hin (.inl hb)
    · rw [hw] at h; cases h; exact .command hin hb hd
    · rw [hw] at h; cases h; exact .illegal hin hb hd
  · next ha =>
    split at h
    · next i hi =>
      cases h
      unfold State.writeBuffer
      split
      · next hb => exact .ignored hin (.inl hb)
      · next hb => exact .stored hin (Bool.eq_false_iff.mpr hb) hi
    · next hi => cases h; exact .ignored hin (.inr ⟨ha, hi⟩)

/-- If a step answers a next state, one of the moves above was made. -/
theorem step_move {s t : State} (h : step s = .next t) : Move s t := by
  unfold step at h
  split at h
  · next hin => exact .alone hin (coreStep_move h)
  · next x rest hin =>
    cases x with
    | wr a v => exact hostWrite_move hin h
    | rd a => cases h; exact .read hin
    | rst => cases h; exact .reset hin
    | core => exact .turn hin (coreStep_move h)
    | wait => cases h; exact .poll hin
    | answer => cases h; exact .answer hin

theorem hostWait_cases (s : State) :
    (s.busy = true ∧ hostWait s = (s.hostRead addrStatus).prepend [.core, .wait]) ∨
    (s.busy = false ∧ hostWait s = s.hostRead addrStatus) := by
  have hbit : statusBusy s.statusByte = s.busy := by
    unfold statusBusy State.statusByte
    cases s.busy <;> cases s.done <;> cases s.err <;> cases s.ecode <;> rfl
  cases hb : s.busy
  · exact .inr ⟨rfl, by simp [hostWait, hbit, hb]⟩
  · exact .inl ⟨rfl, by simp [hostWait, hbit, hb]⟩

theorem hostAnswer_cases (s : State) :
    (s.done = true ∧ hostAnswer s = (s.hostRead addrStatus).prepend [.rd addrRtag, .rd addrResult]) ∨
    (s.done = false ∧ hostAnswer s = s.hostRead addrStatus) := by
  have hbit : statusDone s.statusByte = s.done := by
    unfold statusDone State.statusByte
    cases s.busy <;> cases s.done <;> cases s.err <;> cases s.ecode <;> rfl
  cases hd : s.done
  · exact .inr ⟨rfl, by simp [hostAnswer, hbit, hd]⟩
  · exact .inl ⟨rfl, by simp [hostAnswer, hbit, hd]⟩

end Sys2Proof.Machine
end

