-- ==== Sys2Proof/Laws/Run.lean ====
section
/-! SUPPORT. Running several steps, and what a step does with each kind of entry of the total order. -/

namespace Sys2Proof.Machine

/-! ### Runs -/

theorem runSteps_zero (s : State) : runSteps 0 s = .next s := rfl

theorem runSteps_next {s u : State} {k : Nat} (h : step s = .next u) :
    runSteps (k + 1) s = runSteps k u := by
  have h2 : Sys2Proof.core.step s = _ := h
  simp only [runSteps, Host.Core.run, h2]
  rfl

theorem runSteps_fault {s : State} {f : Fault} {k : Nat} (h : step s = .fault f) :
    runSteps (k + 1) s = .fault f := by
  have h2 : Sys2Proof.core.step s = _ := h
  simp only [runSteps, Host.Core.run, h2]
  rfl

theorem runSteps_refused {s : State} {r : Refusal} {k : Nat} (h : step s = .refused r) :
    runSteps (k + 1) s = .refused r := by
  have h2 : Sys2Proof.core.step s = _ := h
  simp only [runSteps, Host.Core.run, h2]
  rfl

/-- A run that ends in a next state can be continued from there. -/
theorem runSteps_add : ∀ {k : Nat} (l : Nat) {s u : State},
    runSteps k s = .next u → runSteps (k + l) s = runSteps l u
  | 0, l, s, u, h => by
    have hs : s = u := by simpa [runSteps_zero] using h
    rw [hs, Nat.zero_add]
  | k + 1, l, s, u, h => by
    cases hs : step s with
    | next v =>
      rw [runSteps_next hs] at h
      rw [show k + 1 + l = (k + l) + 1 by omega, runSteps_next hs]
      exact runSteps_add l h
    | fault f => rw [runSteps_fault hs] at h; cases h
    | refused r => rw [runSteps_refused hs] at h; cases h

/-! ### Steps, by the next entry -/

theorem step_alone {s : State} (h : s.inputs = []) : step s = coreStep s := by simp only [step, h]

theorem step_core {s : State} {rest : List Input} (h : s.inputs = .core :: rest) :
    step s = coreStep { s with inputs := rest } := by simp only [step, h, takeInput]

theorem step_write {s : State} {a : HostAddr} {v : Byte} {rest : List Input}
    (h : s.inputs = .wr a v :: rest) : step s = hostWrite { s with inputs := rest } a v := by
  simp only [step, h, takeInput]

theorem step_read {s : State} {a : HostAddr} {rest : List Input} (h : s.inputs = .rd a :: rest) :
    step s = .next (({ s with inputs := rest } : State).hostRead a) := by
  simp only [step, h, takeInput]

theorem step_reset {s : State} {rest : List Input} (h : s.inputs = .rst :: rest) :
    step s = .next ({ s with inputs := rest } : State).afterRst := by
  simp only [step, h, takeInput]

theorem step_wait {s : State} {rest : List Input} (h : s.inputs = .wait :: rest) :
    step s = .next (hostWait { s with inputs := rest }) := by
  simp only [step, h, takeInput]

theorem step_answer {s : State} {rest : List Input} (h : s.inputs = .answer :: rest) :
    step s = .next (hostAnswer { s with inputs := rest }) := by
  simp only [step, h, takeInput]

/-- An idle core with nothing to come rests (log entry 10). -/
theorem runSteps_rest {u : State} (hin : u.inputs = []) (hst : u.st = .idle) :
    ∀ k, runSteps k u = .next u
  | 0 => rfl
  | k + 1 => by
    rw [runSteps_next ((step_alone hin).trans (coreStep_idle hst))]
    exact runSteps_rest hin hst k

end Sys2Proof.Machine
end

