-- ==== Sys2Proof/Laws/Trace.lean ====
section
/-! SUPPORT. Appending to a trace keeps the shape of the trigger bracket (40_invocation.md R125 (b)). -/

namespace Sys2Proof.Machine

/-- A work event keeps an open trace open. -/
theorem traceOpen_snoc_work {tr : List Event} {e : Event} (h : traceOpen tr = true)
    (he : e.isWork = true) : traceOpen (tr ++ [e]) = true := by
  cases tr with
  | nil => cases h
  | cons x xs => cases x <;> simp_all [traceOpen]

theorem endsWithFall_snoc_fall :
    ∀ {es : List Event}, es.all Event.isWork = true → endsWithFall (es ++ [.trigFall]) = true
  | [], _ => rfl
  | e :: es, h => by
    simp only [List.all_cons, Bool.and_eq_true] at h
    have hne : e ≠ .trigFall := by rintro rfl; cases h.1
    simp [endsWithFall, hne, h.1, endsWithFall_snoc_fall h.2]

/-- The fall closes an open trace. -/
theorem traceClosed_snoc_fall {tr : List Event} (h : traceOpen tr = true) :
    traceClosed (tr ++ [.trigFall]) = true := by
  cases tr with
  | nil => cases h
  | cons x xs => cases x <;> simp_all [traceOpen, traceClosed, endsWithFall_snoc_fall]

end Sys2Proof.Machine
end

