-- ==== Sys2Proof/Tests/Slice0.lean ====
section
/-! SUPPORT. The model's own tests. Expected values come from the spec's tables and worked traces, named
in each docstring. The theorems `test_witness_…` show, for each statement with hypotheses, states and
operands that meet them. -/

namespace Sys2Proof.Tests

open Sys2Proof Sys2Proof.Machine

/-! ### Helpers -/

/-- The state after reset with these bytes written to `IBUF[0]`, `IBUF[1]`, … -/
def loaded (bs : List Byte) : State := bs.zipIdx.foldl (fun s p => s.storeByte p.2 p.1) State.reset

/-- The Reference Secret (10_state.md R35). -/
def secret : List Byte := [0x69, 0x6E, 0x66, 0x69, 0x6E, 0x65, 0x6F, 0x6E]

/-- The attempt "infinexn", first wrong at index 6 (42_compare.md R190). -/
def almost : List Byte := [0x69, 0x6E, 0x66, 0x69, 0x6E, 0x65, 0x78, 0x6E]

/-- The same state with these entries still to come. -/
def State.then (s : State) (xs : List Input) : State := { s with inputs := xs }

/-- The next state of an outcome that has one. -/
def after : Host.Outcome State Fault Refusal → State
  | .next t => t
  | .fault _ => State.reset
  | .refused _ => State.reset

/-- An engine invocation in this sequencer state, with these registers. -/
def engineAt (st : SeqState) (res base exp mod : Byte) : State :=
  { State.reset with
    st := st, opr := 1, trig := true, trace := [.trigRise], res := res, base := base, exp := exp
    mod := mod }

/-- A `CMPE` invocation at this index, on this buffer. -/
def earlyAt (bs : List Byte) (i : BitVec 4) : State :=
  { loaded bs with
    st := .cmpaLoop, opr := 2, trig := true, trace := [.trigRise], idx := i, flag := 1 }

/-- A `CMPU` invocation at this index, on this buffer. -/
def uniformAt (bs : List Byte) (i : BitVec 4) (acc : Byte) : State :=
  { loaded bs with
    st := .cmpbLoop, opr := 3, trig := true, trace := [.trigRise], idx := i, acc := acc }

/-- An invocation of this command code at its last step. -/
def finAt (op : BitVec 2) : State :=
  { State.reset with
    st := .fin, opr := op, trig := true, trace := [.trigRise], res := 0x3E, acc := 0x17, flag := 1 }

/-- Idle, with the result of an exponentiation to be read. -/
def doneState : State :=
  { State.reset with done := true, result := 0x3E, rtag := 0x72, trace := [.trigRise, .trigFall] }

/-- Idle, with `MODZERO` recorded. -/
def errState : State :=
  { State.reset with err := true, ecode := .modzero, trace := [.trigRise, .trigFall] }

/-! ### Well-formedness: each check refuses an ill-formed term -/

/-- Nine bytes are not the whole buffer (30_encoding.md R99). -/
theorem test_wf_cmpe_nine_bytes : (Stmt.cmpeOf (List.replicate 9 0x41)).wf = false := by decide
/-- Eleven bytes are more than the buffer (30_encoding.md R99). -/
theorem test_wf_cmpu_eleven_bytes : (Stmt.cmpuOf (List.replicate 11 0x41)).wf = false := by decide
/-- Nine characters (30_encoding.md R99). -/
theorem test_wf_cmpe_nine_characters : (Stmt.cmpeText (List.replicate 9 'a')).wf = false := by decide
/-- A character that is no 7-bit ASCII code (30_encoding.md R98). -/
theorem test_wf_cmpu_not_ascii : (Stmt.cmpuText (List.replicate 10 'é')).wf = false := by decide
/-- Ten bytes are accepted (30_encoding.md R99). -/
theorem test_wf_ten_bytes : (Stmt.cmpeOf (List.replicate 10 0x41)).wf = true := by decide

/-! ### Decoding: words written out from the format and map of 30_encoding.md R90, R91 -/

theorem test_decode_expf : decode 0b00000000#8 = .ok .expf := by decide
theorem test_decode_expv : decode 0b00000001#8 = .ok .expv := by decide
theorem test_decode_cmpe : decode 0b00000010#8 = .ok .cmpe := by decide
theorem test_decode_cmpu : decode 0b00000011#8 = .ok .cmpu := by decide
/-- 30_encoding.md R92: the least illegal byte, and one whose low bits look like a command. -/
theorem test_decode_illegal :
    decode 0b00000100#8 = .error .zeroFieldSet ∧ decode 0b11000001#8 = .error .zeroFieldSet := by decide
theorem test_table_words :
    decodeTableWord 8 0 = some .expf ∧ decodeTableWord 8 1 = some .expv ∧
    decodeTableWord 8 2 = some .cmpe ∧ decodeTableWord 8 3 = some .cmpu ∧
    decodeTableWord 8 4 = none := by decide

/-! ### One step, at most two tests a command -/

/-- 41_modexp.md R164, row 0. -/
theorem test_expf_acceptance :
    let t := after (step (State.reset.withFetchWord 8 0))
    t.st = .expChk ∧ t.res = 1 ∧ t.base = 160 ∧ t.exp = 5 ∧ t.mod = 221 ∧ t.trig = true ∧
      t.trace = [.trigRise] := by decide
/-- 41_modexp.md R164, row 10: 191·160 = 30560, 30560 mod 221 = 62. -/
theorem test_expf_multiply :
    let t := after (coreStep (engineAt .expMul 160 191 1 221))
    t.st = .expSqr ∧ t.res = 62 ∧ t.base = 191 ∧ t.prod = 30560 ∧ t.trace = [.trigRise, .mul] := by
  decide
/-- 30_encoding.md R93: message, exponent, modulus in that order. -/
theorem test_expv_acceptance :
    let t := after (step ((loaded [3, 4, 5]).withFetchWord 8 1))
    t.base = 3 ∧ t.exp = 4 ∧ t.mod = 5 ∧ t.opr = 1 ∧ t.statusByte = 0x01 := by decide
/-- 41_modexp.md R153: a zero modulus. -/
theorem test_expv_modzero :
    let t := after (coreStep (engineAt .expChk 1 3 4 0))
    t.st = .idle ∧ t.statusByte = 0x0C ∧ t.trig = false ∧ t.trace = [.trigRise, .trigFall] := by decide
/-- 42_compare.md R190, row 0. -/
theorem test_cmpe_acceptance :
    let t := after (step ((loaded almost).withFetchWord 8 2))
    t.st = .cmpaLoop ∧ t.idx = 0 ∧ t.flag = 1 ∧ t.opr = 2 ∧ t.trig = true := by decide
/-- 42_compare.md R190, row 7: the mismatch keeps the index. -/
theorem test_cmpe_mismatch :
    let t := after (coreStep (earlyAt almost 6))
    t.st = .fin ∧ t.idx = 6 ∧ t.flag = 0 ∧ t.trace = [.trigRise, .cmp 6] := by decide
/-- 42_compare.md R191, row 0. -/
theorem test_cmpu_acceptance :
    let t := after (step ((loaded almost).withFetchWord 8 3))
    t.st = .cmpbLoop ∧ t.idx = 0 ∧ t.acc = 0 ∧ t.opr = 3 ∧ t.trig = true := by decide
/-- 42_compare.md R191, row 7: 0x6F ^ 0x78 = 0x17. -/
theorem test_cmpu_difference :
    let t := after (coreStep (uniformAt almost 6 0))
    t.st = .cmpbLoop ∧ t.idx = 7 ∧ t.acc = 0x17 ∧ t.trace = [.trigRise, .cmp 6] := by decide

/-! ### The port, one step each -/

/-- 20_memory.md R61: `IBUF` reads as 0x00. -/
theorem test_read_buffer :
    (after (step (State.then (loaded [7]) [.rd 0x10]))).reads = [(0x10, 0x00)] := by decide
/-- 20_memory.md R68: a write while busy is lost. -/
theorem test_write_while_busy :
    (after (step (State.then (earlyAt almost 0) [.wr 0x10 0xFF]))).coreByte 0 = 0x69 := by decide
/-- 60_exceptions.md R212. -/
theorem test_illegal_command :
    (after (step (State.then doneState [.wr 0x00 0x04]))).statusByte = 0x14 := by decide
/-- 70_reset_and_hazards.md R241: reset during an invocation. -/
theorem test_reset_while_busy :
    let t := after (step (State.then (earlyAt almost 3) [.rst]))
    t.st = .idle ∧ t.trig = false ∧ t.statusByte = 0x00 ∧ t.trace = [] := by decide

/-! ### States with the invariant -/

theorem test_inv_engine : (engineAt .expHead 1 3 4 5).Inv := by
  refine ⟨?_, ?_, ?_, ?_, ?_, ?_, ?_, ?_⟩ <;> decide
theorem test_inv_modzero : (engineAt .expChk 1 3 4 0).Inv := by
  refine ⟨?_, ?_, ?_, ?_, ?_, ?_, ?_, ?_⟩ <;> decide
theorem test_inv_uniform : (uniformAt almost 8 0x17).Inv := by
  refine ⟨?_, ?_, ?_, ?_, ?_, ?_, ?_, ?_⟩ <;> decide
theorem test_inv_early : (earlyAt almost 7).Inv := by
  refine ⟨?_, ?_, ?_, ?_, ?_, ?_, ?_, ?_⟩ <;> decide

/-! ### Witnesses for the statements with hypotheses -/

theorem test_witness_EveryByteGetsOneVerdict :
    (0x04#8).extractLsb' 2 6 ≠ 0 ∧ (0xFF#8).extractLsb' 2 6 ≠ 0 ∧
    (0x00#8).extractLsb' 2 6 = 0 ∧ (0x00#8).extractLsb' 0 2 = 0b00#2 ∧
    (0x01#8).extractLsb' 2 6 = 0 ∧ (0x01#8).extractLsb' 0 2 = 0b01#2 ∧
    (0x02#8).extractLsb' 2 6 = 0 ∧ (0x02#8).extractLsb' 0 2 = 0b10#2 ∧
    (0x03#8).extractLsb' 2 6 = 0 ∧ (0x03#8).extractLsb' 0 2 = 0b11#2 := by decide
theorem test_witness_EncodeAndDecodeAgree : Instr.cmpu.wf = true ∧ decode 0x03 = .ok .cmpu := by decide
theorem test_witness_StepRunsTheDecodedCommand :
    (State.then State.reset [.wr 0x00 0x01, .core]).inputs = .wr 0x00 0x01 :: [.core] ∧
    decode 0x01 = .ok .expv := by decide
theorem test_witness_FetchWordIsRunNext : 3 < 256 ∧ decodeTableWord 8 3 = some .cmpu := by decide
/-- Busy, illegal at both ends of the range, and the four commands. -/
theorem test_witness_CommandWriteFollowsTheAcceptanceRule :
    ((State.then (finAt 0) [.wr 0x00 0x00]).inputs = [.wr 0x00 0x00] ∧ (finAt 0).st ≠ .idle) ∧
    (∀ c ∈ [0x04#8, 0xFF#8], (State.then State.reset [.wr 0x00 c]).inputs = [.wr 0x00 c] ∧
      State.reset.st = .idle ∧ c.extractLsb' 2 6 ≠ 0) ∧
    (∀ c ∈ [0x00#8, 0x01#8, 0x02#8, 0x03#8],
      (State.then State.reset [.wr 0x00 c]).inputs = [.wr 0x00 c]) := by decide
theorem test_witness_EngineCommandsLoadTheirOperands : (loaded [3, 4, 5]).st = .idle := by decide
theorem test_witness_ComparatorCommandsInitialise : (loaded almost).st = .idle := by decide
theorem test_witness_BusyCommandsAreTurnedAway : (engineAt .expSqr 1 3 4 5).st ≠ .idle := by decide
theorem test_witness_AcceptanceFrame :
    exec .expf State.reset = .next (after (exec .expf State.reset)) ∧
    exec .cmpe (loaded almost) = .next (after (exec .cmpe (loaded almost))) := ⟨rfl, rfl⟩
theorem test_witness_IllegalCommandRecordsIllcmd :
    ∀ c ∈ [0x04#8, 0xFF#8], (State.then doneState [.wr 0x00 c]).inputs = .wr 0x00 c :: [] ∧
      doneState.st = .idle ∧ 4 ≤ c.toNat := by decide
theorem test_witness_BusyWritesAreLost :
    (State.then (finAt 2) [.wr 0x19 0xFF]).inputs = .wr 0x19 0xFF :: [] ∧ (finAt 2).st ≠ .idle := by decide
/-- The first and the last index, idle and busy. -/
theorem test_witness_BufferWriteStoresOneByte :
    ∀ p ∈ [(0, (0x10 : HostAddr)), (9, 0x19)], p.1 < 10 ∧ p.2.toNat = 0x10 + p.1 ∧
      (State.then (loaded almost) [.wr p.2 0x00]).ibuf.wf = true ∧
      (State.then (loaded almost) [.wr p.2 0x00]).inputs = .wr p.2 0x00 :: [] ∧
      (loaded almost).st = .idle ∧
      (State.then (earlyAt almost 0) [.wr p.2 0x00]).ibuf.wf = true ∧ (earlyAt almost 0).st ≠ .idle := by
  decide
/-- Both ends of both ranges, read and written. -/
theorem test_witness_ReservedAddressesAreInert :
    ∀ a ∈ [(0x04 : HostAddr), 0x0F, 0x1A, 0x1F],
      ((4 ≤ a.toNat ∧ a.toNat ≤ 0x0F) ∨ 0x1A ≤ a.toNat) ∧
      (State.then State.reset [.rd a]).inputs = .rd a :: [] ∧
      (State.then State.reset [.wr a 0xFF]).inputs = .wr a 0xFF :: [] := by decide
theorem test_witness_HostWritesOnlyCommandAndBuffer :
    ∀ a ∈ [(0x01 : HostAddr), 0x0F, 0x1A, 0x1F],
      (State.then State.reset [.wr a 0xFF]).inputs = .wr a 0xFF :: [] ∧ a ≠ 0x00 ∧
      (a.toNat < 0x10 ∨ 0x19 < a.toNat) := by decide
/-- Every clause: `STATUS`, `RESULT` and `RTAG` with `DONE`, and addresses on both sides of them. -/
theorem test_witness_HostReadReturnsTheMappedByte :
    (∀ a ∈ [(0x00 : HostAddr), 0x01, 0x02, 0x03, 0x04, 0x1F],
      (State.then doneState [.rd a]).inputs = .rd a :: []) ∧ doneState.done = true := by decide
theorem test_witness_StatusReadsOneOfFiveValues :
    (State.then (engineAt .expHead 1 3 4 5) [.rd 0x01]).Inv ∧
    (State.then (engineAt .expHead 1 3 4 5) [.rd 0x01]).inputs = .rd 0x01 :: [] := by
  refine ⟨⟨?_, ?_, ?_, ?_, ?_, ?_, ?_, ?_⟩, ?_⟩ <;> decide
theorem test_witness_ResetEventRestoresTheResetTable :
    (State.then (finAt 3) [.rst]).inputs = .rst :: [] := by decide
theorem test_witness_CoreTurnIsOneCoreStep :
    (finAt 0).inputs = [] ∧ (State.then (finAt 0) [.core]).inputs = .core :: [] ∧
    State.reset.st = .idle := by decide
theorem test_witness_CheckStepRejectsZeroModulus :
    ((engineAt .expChk 1 3 4 0).st = .expChk ∧ (engineAt .expChk 1 3 4 0).mod = 0) ∧
    ((engineAt .expChk 1 3 4 1).st = .expChk ∧ (engineAt .expChk 1 3 4 1).mod ≠ 0) := by decide
/-- Exponents 0, 1, 2 and 255. -/
theorem test_witness_HeadStepTestsExponentAndBit :
    (engineAt .expHead 1 3 0 5).st = .expHead ∧ (engineAt .expHead 1 3 0 5).exp.toNat = 0 ∧
    (∀ e ∈ [1#8, 255#8], (engineAt .expHead 1 3 e 5).exp.toNat ≠ 0 ∧
      (engineAt .expHead 1 3 e 5).exp.toNat % 2 = 1) ∧
    ((engineAt .expHead 1 3 2 5).exp.toNat ≠ 0 ∧ (engineAt .expHead 1 3 2 5).exp.toNat % 2 = 0) := by
  decide
theorem test_witness_MultiplyStepIsExact :
    (engineAt .expMul 255 255 1 1).st = .expMul ∧ (engineAt .expMul 255 255 1 1).mod ≠ 0 := by decide
theorem test_witness_SquareStepIsExact :
    (engineAt .expSqr 1 255 1 255).st = .expSqr ∧ (engineAt .expSqr 1 255 1 255).mod ≠ 0 := by decide
theorem test_witness_ShiftStepHalvesTheExponent : (engineAt .expShr 1 3 255 5).st = .expShr := by decide
/-- The end, a match at 0 and at 7, a mismatch at 6. -/
theorem test_witness_EarlyExitStepFollowsItsRule :
    ((earlyAt almost 8).st = .cmpaLoop ∧ (earlyAt almost 8).idx = 8) ∧
    ((earlyAt almost 0).idx.toNat = (0 : Fin 8).val ∧
      (earlyAt almost 0).coreByte (0 : Fin 8).val = (earlyAt almost 0).cfg.ref.get 0) ∧
    ((earlyAt almost 6).idx.toNat = (6 : Fin 8).val ∧
      (earlyAt almost 6).coreByte (6 : Fin 8).val ≠ (earlyAt almost 6).cfg.ref.get 6) ∧
    ((earlyAt almost 7).idx.toNat = (7 : Fin 8).val ∧
      (earlyAt almost 7).coreByte (7 : Fin 8).val = (earlyAt almost 7).cfg.ref.get 7) := by decide
theorem test_witness_UniformStepFollowsItsRule :
    ((uniformAt almost 8 0).st = .cmpbLoop ∧ (uniformAt almost 8 0).idx = 8) ∧
    (uniformAt almost 0 0).idx.toNat = (0 : Fin 8).val ∧
    (uniformAt almost 7 0xFF).idx.toNat = (7 : Fin 8).val := by decide
theorem test_witness_FinStepPublishesTheResult :
    (∀ op ∈ [0b00#2, 0b01#2, 0b10#2, 0b11#2], (finAt op).st = .fin ∧ (finAt op).opr = op) ∧
    (finAt 0).cfg = Config.built := by decide
theorem test_witness_EveryStepKeepsTheInvariant :
    (engineAt .expHead 1 3 4 5).Inv ∧
    step (engineAt .expHead 1 3 4 5) = .next (after (step (engineAt .expHead 1 3 4 5))) :=
  ⟨test_inv_engine, rfl⟩
theorem test_witness_MachineNeverStops : (uniformAt almost 8 0x17).Inv := test_inv_uniform
/-- Both sources. -/
theorem test_witness_OnlyTwoErrorSources :
    ((engineAt .expChk 1 3 4 0).Inv ∧
      step (engineAt .expChk 1 3 4 0) = .next (after (step (engineAt .expChk 1 3 4 0))) ∧
      (engineAt .expChk 1 3 4 0).err = false ∧ (after (step (engineAt .expChk 1 3 4 0))).err = true) ∧
    ((State.then doneState [.wr 0x00 0x04]).Inv ∧
      step (State.then doneState [.wr 0x00 0x04]) =
        .next (after (step (State.then doneState [.wr 0x00 0x04]))) ∧
      doneState.err = false ∧ (after (step (State.then doneState [.wr 0x00 0x04]))).err = true) := by
  refine ⟨⟨test_inv_modzero, rfl, rfl, rfl⟩, ⟨?_, rfl, rfl, rfl⟩⟩
  refine ⟨?_, ?_, ?_, ?_, ?_, ?_, ?_, ?_⟩ <;> decide
/-- A rise, and the falls in `FIN`, in the zero-modulus exit and at reset. -/
theorem test_witness_TriggerMovesOnlyAtWindowEdges :
    ∀ s ∈ [State.then State.reset [.wr 0x00 0x03], finAt 1, engineAt .expChk 1 3 4 0,
        State.then (finAt 1) [.rst]],
      (after (step s)).trig ≠ s.trig := by decide
theorem test_witness_ResultIsWrittenOnlyByFin :
    step (finAt 1) = .next (after (step (finAt 1))) ∧
    (after (step (finAt 1))).result ≠ (finAt 1).result ∧
    (after (step (finAt 1))).rtag ≠ (finAt 1).rtag ∧
    ((finAt 1).done = false ∧ (after (step (finAt 1))).done = true) :=
  ⟨rfl, by decide, by decide, by decide⟩
/-- `DONE` cleared by a legal command, `ERR` by a legal command, `DONE` by reset. -/
theorem test_witness_OutcomeIsStickyUntilTheNextCommand :
    ((State.then doneState [.wr 0x00 0x00]).Inv ∧ doneState.done = true ∧
      (after (step (State.then doneState [.wr 0x00 0x00]))).done = false) ∧
    (errState.err = true ∧ (after (step (State.then errState [.wr 0x00 0x02]))).err = false) ∧
    (after (step (State.then doneState [.rst]))).done = false := by
  refine ⟨⟨⟨?_, ?_, ?_, ?_, ?_, ?_, ?_, ?_⟩, ?_, ?_⟩, ?_, ?_⟩ <;> decide
theorem test_witness_ConstantsAreNeverWritten :
    step (State.then (finAt 1) [.rst]) = .next (after (step (State.then (finAt 1) [.rst]))) := rfl
theorem test_witness_BufferChangesOnlyByHostWrite :
    (after (step (State.then State.reset [.wr 0x10 0x01]))).ibuf.read 0 ≠ State.reset.ibuf.read 0 ∧
    (after (step (State.then State.reset [.wr 0x19 0x01]))).ibuf.read 9 ≠ State.reset.ibuf.read 9 := by
  decide
/-- One step for each kind of work event, and both comparators. -/
theorem test_witness_WorkHappensOnlyInsideTheWindow :
    (earlyAt almost 7).Inv ∧
    ∀ p ∈ [(engineAt .expMul 1 3 4 5, Event.mul), (engineAt .expSqr 1 3 4 5, .sqr),
        (engineAt .expShr 1 3 4 5, .shr), (earlyAt almost 7, .cmp 7), (uniformAt almost 0 0, .cmp 0)],
      (after (step p.1)).trace = p.1.trace ++ [p.2] ∧ p.2.isWork = true := ⟨test_inv_early, by decide⟩
theorem test_witness_SecretIsReadOnlyByTheComparators :
    (finAt 3).st ≠ .cmpaLoop ∧ (finAt 3).st ≠ .cmpbLoop ∧
    step (finAt 3) = .next (after (step (finAt 3))) := ⟨by decide, by decide, rfl⟩

/-- An idle state of this hardware with nothing to come: all hypotheses of `FixedExponentiationGives62`,
`UniformComparisonOutcome` and `ComparatorsAgreeWithOppositePolarity`. -/
theorem test_witness_idle_invocation :
    (loaded almost).st = .idle ∧ (loaded almost).inputs = [] ∧ (loaded almost).cfg = Config.built := by
  decide
/-- Exponents 0 and 255, moduli 1 and 255. -/
theorem test_witness_VariableExponentiationComputesThePower :
    ((loaded [3, 0, 1]).st = .idle ∧ (loaded [3, 0, 1]).inputs = [] ∧
      (loaded [3, 0, 1]).coreByte 0 = 3 ∧ (loaded [3, 0, 1]).coreByte 1 = 0 ∧
      (loaded [3, 0, 1]).coreByte 2 = 1 ∧ (1 : Byte) ≠ 0) ∧
    ((loaded [3, 255, 255]).st = .idle ∧ (loaded [3, 255, 255]).inputs = [] ∧
      (loaded [3, 255, 255]).coreByte 0 = 3 ∧ (loaded [3, 255, 255]).coreByte 1 = 255 ∧
      (loaded [3, 255, 255]).coreByte 2 = 255 ∧ (255 : Byte) ≠ 0) := by decide
theorem test_witness_VariableExponentiationRejectsZeroModulus :
    (loaded [3, 4, 0]).st = .idle ∧ (loaded [3, 4, 0]).inputs = [] ∧ (loaded [3, 4, 0]).coreByte 2 = 0 := by
  decide
/-- A first mismatch at 0, at 6, at 7, and a match. -/
theorem test_witness_EarlyExitComparisonOutcome :
    ((loaded almost).st = .idle ∧ (loaded almost).inputs = []) ∧
    ((loaded [0x78]).coreByte (0 : Fin 8).val ≠ (loaded [0x78]).cfg.ref.get 0) ∧
    ((loaded almost).coreByte (6 : Fin 8).val ≠ (loaded almost).cfg.ref.get 6 ∧
      ∀ j : Fin 8, j.val < (6 : Fin 8).val → (loaded almost).coreByte j.val = (loaded almost).cfg.ref.get j) ∧
    ((loaded (secret.take 7 ++ [0])).coreByte (7 : Fin 8).val ≠ (loaded almost).cfg.ref.get 7 ∧
      ∀ j : Fin 8, j.val < (7 : Fin 8).val →
        (loaded (secret.take 7 ++ [0])).coreByte j.val = (loaded almost).cfg.ref.get j) ∧
    (∀ j : Fin 8, (loaded secret).coreByte j.val = (loaded secret).cfg.ref.get j) := by decide
/-- A command byte of each kind, the illegal one included. -/
theorem test_witness_StepLevelRefinesTheOperationLevel :
    ∀ c ∈ [0x00#8, 0x01#8, 0x02#8, 0x03#8, 0x04#8, 0xFF#8],
      (State.then (loaded almost) [.wr 0x00 c]).st = .idle ∧
      (State.then (loaded almost) [.wr 0x00 c]).inputs = [.wr 0x00 c] := by decide
theorem test_witness_UniformComparisonHidesItsInputs :
    (loaded almost).st = .idle ∧ ((loaded secret).withSecret (Vector.replicate 8 0)).st = .idle ∧
    (loaded almost).inputs = [] ∧ ((loaded secret).withSecret (Vector.replicate 8 0)).inputs = [] := by
  decide
/-- Prefixes of 6 and 7 bytes. -/
theorem test_witness_EarlyExitWindowGrowsWithThePrefix :
    (loaded almost).coreByte (6 : Fin 8).val ≠ (loaded almost).cfg.ref.get 6 ∧
    (∀ j : Fin 8, j.val < (6 : Fin 8).val → (loaded almost).coreByte j.val = (loaded almost).cfg.ref.get j) ∧
    (∀ j : Fin 8, j.val < (7 : Fin 8).val → (loaded secret).coreByte j.val = (loaded secret).cfg.ref.get j) ∧
    (6 : Fin 8).val < (7 : Fin 8).val := by decide
theorem test_witness_FixedAndVariableShareOneEngine :
    (loaded [0xA0, 0x05, 0xDD]).coreByte 0 = (loaded [0xA0, 0x05, 0xDD]).cfg.fmsg ∧
    (loaded [0xA0, 0x05, 0xDD]).coreByte 1 = (loaded [0xA0, 0x05, 0xDD]).cfg.fexp ∧
    (loaded [0xA0, 0x05, 0xDD]).coreByte 2 = (loaded [0xA0, 0x05, 0xDD]).cfg.fmod := by decide
theorem test_witness_ExponentiationTraceRevealsTheExponent :
    (loaded [3, 4, 5]).coreByte 2 ≠ 0 ∧ (loaded [3, 255, 1]).coreByte 2 ≠ 0 ∧
    (loaded [3, 4, 5]).inputs = [] ∧ (loaded [3, 255, 1]).inputs = [] := by decide
/-- Two different histories, the same three bytes. -/
theorem test_witness_OutcomeForgetsTheHistory :
    ((loaded [3, 4, 5]).cfg = ({ loaded [3, 4, 5, 6] with res := 9, done := true } : State).cfg) ∧
    (∀ k < readsBelow .expv,
      (loaded [3, 4, 5]).coreByte k = ({ loaded [3, 4, 5, 6] with res := 9, done := true } : State).coreByte k) := by
  decide
theorem test_witness_EveryInvocationEndsWithin35Steps :
    (engineAt .expHead 1 3 4 5).Inv ∧ (engineAt .expHead 1 3 4 5).inputs = [] := ⟨test_inv_engine, rfl⟩
/-- A read, a lost write and a core step inside a `CMPU` invocation. -/
theorem test_witness_HostCannotDisturbAnInvocation :
    (∀ x ∈ [Input.rd 0x01, .wr 0x10 0xFF, .core],
      x = .core ∨ (∃ a v, x = .wr a v) ∨ ∃ a, x = .rd a) ∧
    (∀ j ≤ [Input.rd 0x01, .wr 0x10 0xFF, .core].count .core,
      ∃ v, runSteps j (uniformAt almost 0 0) = .next v ∧ v.st ≠ .idle) := by
  refine ⟨?_, ?_⟩
  · simp
  · intro j hj
    have h1 : [Input.rd 0x01, .wr 0x10 0xFF, .core].count .core = 1 := by decide
    rw [h1] at hj
    match j, hj with
    | 0, _ => exact ⟨_, rfl, by decide⟩
    | 1, _ => exact ⟨after (coreStep (uniformAt almost 0 0)), rfl, by decide⟩
theorem test_witness_StatementsDeliverTheirOperands :
    (loaded almost).st = .idle ∧ (loaded almost).inputs = [] ∧ (loaded almost).ibuf.wf = true ∧
    (List.replicate 10 (0x41 : Byte)).length = 10 := by decide
/-- With a result to read, and with an error. -/
theorem test_witness_GetReadsTheResponse :
    ((State.then doneState (Stmt.expand .get ++ [])).Inv ∧ doneState.st = .idle ∧ doneState.done = true) ∧
    ((State.then errState (Stmt.expand .get ++ [])).Inv ∧ errState.st = .idle ∧ errState.done = false) := by
  refine ⟨⟨⟨?_, ?_, ?_, ?_, ?_, ?_, ?_, ?_⟩, ?_, ?_⟩, ⟨?_, ?_, ?_, ?_, ?_, ?_, ?_, ?_⟩, ?_, ?_⟩ <;> decide
theorem test_witness_WaitEnds :
    (State.then (engineAt .expChk 1 3 255 5) [.wait]).Inv ∧
    (State.then (engineAt .expChk 1 3 255 5) [.wait]).inputs = [.wait] := by
  refine ⟨⟨?_, ?_, ?_, ?_, ?_, ?_, ?_, ?_⟩, ?_⟩ <;> decide
/-- Every command, with exactly the bytes it reads. -/
theorem test_witness_DutifulCommandGetsAResult :
    dutiful (.wr 0x00 0x00) State.reset = true ∧ dutiful (.wr 0x00 0x01) (loaded [3, 4, 5]) = true ∧
    dutiful (.wr 0x00 0x02) (loaded almost) = true ∧ dutiful (.wr 0x00 0x03) (loaded almost) = true ∧
    (State.then (loaded [3, 4, 5]) [.wr 0x00 0x01]).cfg = Config.built := by decide
/-- For `HostProgramReadsTheModularPower` and `HostProgramChecksTheSecret`. -/
theorem test_witness_host_programs :
    doneState.Inv ∧ doneState.st = .idle ∧ doneState.inputs = [] ∧ (255 : Byte) ≠ 0 ∧
    (secret ++ [0x58, 0x59]).length = 10 := by
  refine ⟨⟨?_, ?_, ?_, ?_, ?_, ?_, ?_, ?_⟩, ?_⟩ <;> decide

end Sys2Proof.Tests
end

section
/-! PROOFS. The step level refines the operation level (00_scope.md R5, 40_invocation.md R130), and
what follows from it. The parts: runs that end with an outcome; the recursion of `bitlen`, `popcount`
and the trace along a right shift; the engine's loop by induction on it; the comparators' loops by
induction on the number of examined indices. -/

namespace Sys2Proof.Machine

/-! ### Runs that end with an outcome -/

theorem runSteps_core {s u : State} {k : Nat} (hin : s.inputs = []) (h : coreStep s = .next u) :
    runSteps (k + 1) s = runSteps k u :=
  runSteps_next ((step_alone hin).trans h)

/-- After `k` steps the machine rests in `IDLE` and shows the outcome `r` (40_invocation.md R129). -/
def EndsWith (k : Nat) (s : State) (r : Report) : Prop :=
  ∃ u, runSteps k s = .next u ∧ u.inputs = [] ∧ u.st = .idle ∧ u.shown = r

theorem endsWith_zero {s : State} {r : Report} (hin : s.inputs = []) (hst : s.st = .idle)
    (h : s.shown = r) : EndsWith 0 s r :=
  ⟨s, rfl, hin, hst, h⟩

theorem EndsWith.after_run {k l : Nat} {s v : State} {r : Report} (hrun : runSteps k s = .next v)
    (h : EndsWith l v r) : EndsWith (k + l) s r := by
  obtain ⟨u, hu, hrest⟩ := h
  exact ⟨u, (runSteps_add l hrun).trans hu, hrest⟩

theorem EndsWith.after_step {k : Nat} {s v : State} {r : Report} (hin : s.inputs = [])
    (hstep : coreStep s = .next v) (h : EndsWith k v r) : EndsWith (k + 1) s r := by
  obtain ⟨u, hu, hrest⟩ := h
  exact ⟨u, (runSteps_core hin hstep).trans hu, hrest⟩

/-- The outcome of an invocation is still there after more steps than it needs. -/
theorem EndsWith.of_le {k l : Nat} {s : State} {r : Report} (h : EndsWith k s r) (hkl : k ≤ l) :
    EndsWith l s r := by
  obtain ⟨u, hu, hin, hst, hr⟩ := h
  refine ⟨u, ?_, hin, hst, hr⟩
  rw [← Nat.add_sub_cancel' hkl, runSteps_add _ hu]
  exact runSteps_rest hin hst _

/-- What acceptance sets up and no step before the end of an invocation changes: nothing of the host's
to come, and no outcome yet (40_invocation.md R122). -/
structure State.InFlight (s : State) : Prop where
  alone : s.inputs = []
  err : s.err = false
  ecode : s.ecode = .none

/-- From `FIN` one step shows the result (40_invocation.md R124). -/
theorem endsWith_fin {s : State} (hrun : s.InFlight) (hst : s.st = .fin) :
    EndsWith 1 s
      { kind := .done, result := some s.finalResult, rtag := some s.finalTag, status := 0x02
        trace := s.trace ++ [.trigFall] } := by
  refine EndsWith.after_step hrun.alone (coreStep_fin hst) (endsWith_zero hrun.alone rfl ?_)
  have hstatus : (((s.publish s.finalResult s.finalTag).closeWindow).goto .idle).statusByte = 0x02 :=
    State.statusByte_of (b := false) (d := true) (e := false) (c := .none) rfl rfl hrun.err hrun.ecode
  simp [State.shown, hstatus]

/-- The engine publishes `RES` with the tag of an exponentiation (40_invocation.md R124). -/
theorem final_of_engine {s : State} (h : s.opr.getLsbD 1 = false) :
    s.finalResult = s.res ∧ s.finalTag = s.cfg.tagExp := by
  simp only [State.finalResult, State.finalTag, h, and_self]

/-- Variant A publishes `FLAG` with the tag of a comparison (40_invocation.md R124). -/
theorem final_of_cmpe {s : State} (h : s.opr = 0b10) :
    s.finalResult = flagByte s.flag ∧ s.finalTag = s.cfg.tagCmp := by
  unfold State.finalResult State.finalTag
  rw [h]
  exact ⟨rfl, rfl⟩

/-- Variant B publishes `ACC` with the tag of a comparison (40_invocation.md R124). -/
theorem final_of_cmpu {s : State} (h : s.opr = 0b11) :
    s.finalResult = s.acc ∧ s.finalTag = s.cfg.tagCmp := by
  unfold State.finalResult State.finalTag
  rw [h]
  exact ⟨rfl, rfl⟩

/-! ### The bits of an exponent along a right shift -/

theorem shiftRightOne_getLsbD (e : Byte) (i : Nat) :
    (shiftRightOne e).getLsbD i = e.getLsbD (i + 1) := by
  simp [shiftRightOne, Nat.add_comm]

/-- One more than the greatest index below `n` at which `p` holds, or 0: `bitlen` for any bits. -/
def bitLength (p : Nat → Bool) (n : Nat) : Nat :=
  (List.range n).foldl (fun m i => if p i then i + 1 else m) 0

theorem bitlen_eq (e : Byte) : bitlen e = bitLength e.getLsbD 8 := rfl

theorem bitLength_succ (p : Nat → Bool) (n : Nat) :
    bitLength p (n + 1) = if p n then n + 1 else bitLength p n := by
  simp [bitLength, List.range_succ]

theorem bitLength_le (p : Nat → Bool) : ∀ n, bitLength p n ≤ n
  | 0 => Nat.le_refl 0
  | n + 1 => by
    have ih := bitLength_le p n
    rw [bitLength_succ]
    split <;> omega

/-- Dropping the lowest bit shortens by one, if any bit is set. -/
theorem bitLength_shift (p : Nat → Bool) :
    ∀ n, (∃ i < n + 1, p i = true) → bitLength p (n + 1) = bitLength (fun i => p (i + 1)) n + 1
  | 0, ⟨i, hi, hp⟩ => by
    obtain rfl : i = 0 := by omega
    simp [bitLength, hp]
  | n + 1, ⟨i, hi, hp⟩ => by
    rw [bitLength_succ p, bitLength_succ (fun i => p (i + 1))]
    cases htop : p (n + 1)
    · have hne : i ≠ n + 1 := by rintro rfl; simp [htop] at hp
      simpa using bitLength_shift p n ⟨i, by omega, hp⟩
    · rfl

theorem bitlen_le (e : Byte) : bitlen e ≤ 8 := bitLength_le _ 8

theorem bitlen_shiftRightOne {e : Byte} (he : e ≠ 0) : bitlen e = bitlen (shiftRightOne e) + 1 := by
  have hbit : ∃ i < 7 + 1, e.getLsbD i = true := by
    by_contra hnone
    push Not at hnone
    exact he (BitVec.eq_of_getLsbD_eq fun i hi => by simpa using hnone i hi)
  have hshift : (shiftRightOne e).getLsbD = fun i => e.getLsbD (i + 1) :=
    funext (shiftRightOne_getLsbD e)
  have htop : ¬ e.getLsbD (7 + 1) = true := by simp
  calc bitlen e = bitLength (fun i => e.getLsbD (i + 1)) 7 + 1 := bitLength_shift _ 7 hbit
    _ = bitLength (fun i => e.getLsbD (i + 1)) (7 + 1) + 1 := by rw [bitLength_succ _ 7, if_neg htop]
    _ = bitlen (shiftRightOne e) + 1 := by rw [bitlen_eq, hshift]

theorem popcount_le (e : Byte) : popcount e ≤ 8 := by
  simpa [popcount] using List.length_filter_le (fun i => e.getLsbD i) (List.range 8)

theorem popcount_shiftRightOne (e : Byte) :
    popcount e = popcount (shiftRightOne e) + (e.getLsbD 0).toNat := by
  have hlow : List.range 8 = 0 :: (List.range 7).map Nat.succ := List.range_succ_eq_map
  have hhigh : List.range 8 = List.range 7 ++ [7] := List.range_succ
  have hrest : popcount (shiftRightOne e) =
      ((List.range 7).filter (fun i => e.getLsbD (i + 1))).length := by
    simp [popcount, hhigh, shiftRightOne_getLsbD]
  rw [hrest, popcount, hlow, List.filter_cons, List.filter_map, Function.comp_def]
  cases e.getLsbD 0 <;> simp

/-- The work events of an exponentiation, without the trigger's edges (41_modexp.md R160). -/
def workEvents (e : Byte) : List Event := (List.range (bitlen e)).flatMap (bitEvents e)

theorem expTrace_eq (e : Byte) : expTrace e = [.trigRise] ++ workEvents e ++ [.trigFall] := rfl

theorem workEvents_shiftRightOne {e : Byte} (he : e ≠ 0) :
    workEvents e = bitEvents e 0 ++ workEvents (shiftRightOne e) := by
  have hshift : ∀ i, bitEvents e (i + 1) = bitEvents (shiftRightOne e) i := fun i => by
    simp [bitEvents, shiftRightOne_getLsbD]
  simp [workEvents, bitlen_shiftRightOne he, List.range_succ_eq_map, List.flatMap_map, hshift]

/-! ### The engine -/

/-- The engine at work: past its check step, with the tag bit of an exponentiation latched. -/
structure State.EngineRuns (s : State) : Prop extends s.InFlight where
  engine : s.opr.getLsbD 1 = false
  modulus : s.mod ≠ 0

/-- The state after one exponent bit has been worked off (41_modexp.md R154 to R157). -/
def State.engineBit (s : State) : State :=
  (((if s.exp.getLsbD 0 then s.multiply.emit .mul else s).square.emit .sqr).shiftExp.emit .shr).goto
    .expHead

section
variable (s : State)

theorem State.engineBit_st : s.engineBit.st = .expHead := rfl

theorem State.engineBit_mod : s.engineBit.mod = s.mod := by
  unfold State.engineBit; split <;> rfl

theorem State.engineBit_cfg : s.engineBit.cfg = s.cfg := by
  unfold State.engineBit; split <;> rfl

theorem State.engineBit_exp : s.engineBit.exp = shiftRightOne s.exp := by
  unfold State.engineBit; split <;> rfl

theorem State.engineBit_base : s.engineBit.base = remainder (product s.base s.base) s.mod := by
  unfold State.engineBit; split <;> rfl

theorem State.engineBit_res :
    s.engineBit.res =
      if s.exp.getLsbD 0 then remainder (product s.res s.base) s.mod else s.res := by
  unfold State.engineBit; split <;> rfl

theorem State.engineBit_trace : s.engineBit.trace = s.trace ++ bitEvents s.exp 0 := by
  unfold State.engineBit bitEvents; split <;> simp

end

theorem State.EngineRuns.engineBit {s : State} (h : s.EngineRuns) : s.engineBit.EngineRuns := by
  obtain ⟨⟨hin, herr, hecode⟩, hopr, hmod⟩ := h
  unfold State.engineBit
  split
  · exact ⟨⟨hin, herr, hecode⟩, hopr, hmod⟩
  · exact ⟨⟨hin, herr, hecode⟩, hopr, hmod⟩

/-- One exponent bit takes three steps, and a fourth when it is 1 (40_invocation.md R127). -/
theorem runSteps_engineBit {s : State} (h : s.EngineRuns) (hst : s.st = .expHead) (he : s.exp ≠ 0) :
    runSteps (3 + (s.exp.getLsbD 0).toNat) s = .next s.engineBit := by
  unfold State.engineBit
  cases hb : s.exp.getLsbD 0
  · exact (runSteps_core h.alone (coreStep_expHead_zero hst he hb)).trans <|
      (runSteps_core (s := s.goto .expSqr) h.alone (coreStep_expSqr rfl h.modulus)).trans <|
      runSteps_core (s := (s.square.emit .sqr).goto .expShr) h.alone (coreStep_expShr rfl)
  · exact (runSteps_core h.alone (coreStep_expHead_one hst he hb)).trans <|
      (runSteps_core (s := s.goto .expMul) h.alone (coreStep_expMul rfl h.modulus)).trans <|
      (runSteps_core (s := (s.multiply.emit .mul).goto .expSqr) h.alone
        (coreStep_expSqr rfl h.modulus)).trans <|
      runSteps_core (s := ((s.multiply.emit .mul).square.emit .sqr).goto .expShr) h.alone
        (coreStep_expShr rfl)

/-- Working off a bit is one turn of the loop of `ModExp` (41_modexp.md R159). -/
theorem modExpLoop_engineBit {s : State} (hm : s.mod ≠ 0) (he : s.exp ≠ 0) (k : Nat) :
    modExpLoop (k + 1) s.res.toNat s.base.toNat s.exp.toNat s.mod.toNat =
      modExpLoop k s.engineBit.res.toNat s.engineBit.base.toNat s.engineBit.exp.toNat
        s.engineBit.mod.toNat := by
  have he' : s.exp.toNat ≠ 0 := fun h => he (BitVec.eq_of_toNat_eq h)
  rw [modExpLoop, if_neg he', s.engineBit_res, s.engineBit_base, s.engineBit_exp, s.engineBit_mod,
    shiftRightOne_toNat, apply_ite BitVec.toNat, remainder_toNat _ hm, remainder_toNat _ hm,
    product_toNat, product_toNat]
  simp only [bitZero_eq, decide_eq_true_eq]

/-- The outcome of an exponentiation from the head of its loop (41_modexp.md R159, R160), by induction
on a bound on the bits the exponent has left. -/
theorem endsWith_expHead :
    ∀ (k : Nat) {s : State}, s.EngineRuns → s.st = .expHead → s.exp.toNat < 2 ^ k →
      EndsWith (2 + 3 * bitlen s.exp + popcount s.exp) s
        { kind := .done
          result := some (BitVec.ofNat 8
            (modExpLoop k s.res.toNat s.base.toNat s.exp.toNat s.mod.toNat))
          rtag := some s.cfg.tagExp, status := 0x02
          trace := s.trace ++ workEvents s.exp ++ [.trigFall] } := by
  intro k s hrun hst hlt
  by_cases he : s.exp = 0
  · have hloop : ∀ k res base n, modExpLoop k res base 0 n = res := fun k _ _ _ => by cases k <;> rfl
    have hfin := EndsWith.after_step hrun.alone (coreStep_expHead_end hst he)
      (endsWith_fin (s := s.goto .fin) ⟨hrun.alone, hrun.err, hrun.ecode⟩ rfl)
    obtain ⟨hresult, htag⟩ := final_of_engine (s := s.goto .fin) hrun.engine
    simpa [hresult, htag, he, hloop, workEvents, bitlen, popcount] using hfin
  · cases k with
    | zero => exact absurd (BitVec.eq_of_toNat_eq (by simpa using hlt)) he
    | succ k =>
      have hlt' : s.engineBit.exp.toNat < 2 ^ k := by
        rw [s.engineBit_exp, shiftRightOne_toNat]
        omega
      have ih := EndsWith.after_run (runSteps_engineBit hrun hst he)
        (endsWith_expHead k hrun.engineBit s.engineBit_st hlt')
      rw [← modExpLoop_engineBit hrun.modulus he, s.engineBit_trace, s.engineBit_exp, s.engineBit_cfg,
        List.append_assoc s.trace, ← workEvents_shiftRightOne he] at ih
      have hsteps : 2 + 3 * bitlen s.exp + popcount s.exp =
          3 + (s.exp.getLsbD 0).toNat +
            (2 + 3 * bitlen (shiftRightOne s.exp) + popcount (shiftRightOne s.exp)) := by
        rw [bitlen_shiftRightOne he, popcount_shiftRightOne s.exp]
        omega
      rw [hsteps]
      exact ih

/-- The outcome of an exponentiation from its check step, the zero modulus included
(41_modexp.md R153, 40_invocation.md R130). -/
theorem endsWith_loadEngine {s : State} {o : ExpOperands} (hrun : s.InFlight)
    (hopr : s.opr.getLsbD 1 = false) (htrace : s.trace = [.trigRise]) :
    EndsWith (expStepsOf o) (s.loadEngine o) (expReport s.cfg o) := by
  unfold expStepsOf expReport
  by_cases hm : o.md = 0
  · rw [if_pos hm, if_pos hm]
    refine EndsWith.after_step hrun.alone (coreStep_expChk_zero rfl hm)
      (endsWith_zero hrun.alone rfl ?_)
    have hstatus : (((s.loadEngine o).closeWindow.raise .modzero).goto .idle).statusByte = 0x0C :=
      State.statusByte_of (b := false) (d := false) (e := true) (c := .modzero) rfl rfl rfl rfl
    simp [State.shown, hstatus, htrace]
  · rw [if_neg hm, if_neg hm]
    have hloop := endsWith_expHead 8 (s := (s.loadEngine o).goto .expHead)
      ⟨⟨hrun.alone, hrun.err, hrun.ecode⟩, hopr, hm⟩ rfl o.ex.isLt
    have hall := EndsWith.after_step (s := s.loadEngine o) hrun.alone (coreStep_expChk_pos rfl hm)
      hloop
    have hsteps : expSteps o.ex = 2 + 3 * bitlen o.ex + popcount o.ex + 1 := by
      unfold expSteps
      omega
    rw [hsteps, expTrace_eq, ← htrace]
    exact hall

/-! ### The comparators -/

theorem finRange_take_succ {k : Nat} (hk : k < 8) :
    (List.finRange 8).take (k + 1) = (List.finRange 8).take k ++ [⟨k, hk⟩] := by
  rw [List.take_succ_eq_append_getElem (by simpa using hk)]
  simp

/-- The state in which a comparator has examined the first `k` indices, the result registers left out
(42_compare.md R183, R184). -/
def State.examined (s : State) (k : Nat) : State :=
  { s with
    idx := BitVec.ofNat 4 k, trace := s.trace ++ ((List.finRange 8).take k).map Event.cmp }

theorem State.examined_zero {s : State} (h : s.idx = 0) : s.examined 0 = s := by
  unfold State.examined
  rw [show BitVec.ofNat 4 0 = s.idx from h.symm]
  simp

theorem State.examined_idx (s : State) {k : Nat} (hk : k ≤ 8) : (s.examined k).idx.toNat = k := by
  simp only [State.examined, BitVec.toNat_ofNat]
  omega

theorem State.examined_succ (s : State) {k : Nat} (hk : k < 8) :
    s.examined (k + 1) = ((s.examined k).emit (.cmp ⟨k, hk⟩)).nextIndex := by
  simp [State.examined, State.emit, State.nextIndex, finRange_take_succ hk, BitVec.ofNat_add]

/-- A comparison of the first `k` indices without a mismatch (42_compare.md R183). -/
theorem runSteps_cmpaLoop {s : State} (hin : s.inputs = []) (hst : s.st = .cmpaLoop) (hidx : s.idx = 0) :
    ∀ k ≤ 8, (∀ j : Fin 8, j.val < k → s.coreByte j.val = s.refByte j) →
      runSteps k s = .next (s.examined k)
  | 0, _, _ => by rw [State.examined_zero hidx]; rfl
  | k + 1, hk, hmatch => by
    have hlast : (s.examined k).idx.toNat = k := s.examined_idx (by omega)
    have hstep : coreStep (s.examined k) = .next (s.examined (k + 1)) := by
      rw [coreStep_cmpaLoop_index (s := s.examined k) hst (by omega), s.examined_succ hk]
      simp only [hlast]
      rw [compareA_match (s := s.examined k) (hmatch ⟨k, hk⟩ (Nat.lt_succ_self k))]
      simp [State.goto, State.emit, State.nextIndex, State.examined, hst]
    have ih := runSteps_cmpaLoop hin hst hidx k (by omega) fun j hj => hmatch j (by omega)
    exact (runSteps_add 1 ih).trans (runSteps_core hin hstep)

theorem firstMismatch_eq_some {ref x : Vector Byte 8} {k : Fin 8} (h : firstMismatch ref x = some k) :
    x.get k ≠ ref.get k ∧ ∀ j : Fin 8, j.val < k.val → x.get j = ref.get j := by
  obtain ⟨hk, i, hi, hget, hbefore⟩ := List.find?_eq_some_iff_getElem.mp h
  have hik : i = k.val := by simp [← hget]
  refine ⟨by simpa using hk, fun j hj => ?_⟩
  simpa using hbefore j.val (by omega)

theorem firstMismatch_eq_none {ref x : Vector Byte 8} (h : firstMismatch ref x = none) : x = ref := by
  refine Vector.ext fun i hi => ?_
  simpa [Vector.get] using List.find?_eq_none.mp h ⟨i, hi⟩ (List.mem_finRange _)

theorem attempt_get (s : State) (j : Fin 8) : s.attempt.get j = s.coreByte j.val := by
  simp only [State.attempt, Vector.get_ofFn]

/-- Variant A's outcome with the first mismatch at `k` (42_compare.md R185, R186). -/
theorem endsWith_cmpaLoop_mismatch {s : State} {k : Fin 8} (hrun : s.InFlight) (hopr : s.opr = 0b10)
    (hst : s.st = .cmpaLoop) (hidx : s.idx = 0)
    (hmiss : s.coreByte k.val ≠ s.refByte k)
    (hmatch : ∀ j : Fin 8, j.val < k.val → s.coreByte j.val = s.refByte j) :
    EndsWith (k.val + 2) s
      (cmpReport s.cfg 0x00
        (s.trace ++ ((List.finRange 8).take (k.val + 1)).map .cmp ++ [.trigFall])) := by
  have hscan := runSteps_cmpaLoop hrun.alone hst hidx k.val (by omega) hmatch
  have hlast : (s.examined k.val).idx.toNat = k.val := s.examined_idx (by omega)
  have hstep : coreStep (s.examined k.val) =
      .next ((((s.examined k.val).emit (.cmp k)).markIncorrect).goto .fin) := by
    rw [coreStep_cmpaLoop_index (s := s.examined k.val) hst (by omega)]
    simp only [hlast]
    rw [compareA_mismatch (s := s.examined k.val) hmiss]
  refine EndsWith.after_run hscan (EndsWith.after_step hrun.alone hstep ?_)
  have hfin := endsWith_fin (s := (((s.examined k.val).emit (.cmp k)).markIncorrect).goto .fin)
    ⟨hrun.alone, hrun.err, hrun.ecode⟩ rfl
  obtain ⟨hresult, htag⟩ :=
    final_of_cmpe (s := (((s.examined k.val).emit (.cmp k)).markIncorrect).goto .fin) hopr
  rw [hresult, htag] at hfin
  simpa [cmpReport, State.examined, finRange_take_succ k.isLt, flagByte, flagIncorrect] using hfin

/-- Variant A's outcome with no mismatch (42_compare.md R185, R186). -/
theorem endsWith_cmpaLoop_match {s : State} (hrun : s.InFlight) (hopr : s.opr = 0b10)
    (hst : s.st = .cmpaLoop) (hidx : s.idx = 0) (hflag : s.flag = flagCorrect)
    (hmatch : ∀ j : Fin 8, s.coreByte j.val = s.refByte j) :
    EndsWith 10 s
      (cmpReport s.cfg 0x01 (s.trace ++ ((List.finRange 8).take 8).map .cmp ++ [.trigFall])) := by
  have hscan := runSteps_cmpaLoop hrun.alone hst hidx 8 (Nat.le_refl 8) fun j _ => hmatch j
  refine EndsWith.after_run (k := 8) (l := 2) hscan
    (EndsWith.after_step hrun.alone (coreStep_cmpaLoop_end hst rfl) ?_)
  have hfin := endsWith_fin (s := (s.examined 8).goto .fin) ⟨hrun.alone, hrun.err, hrun.ecode⟩ rfl
  obtain ⟨hresult, htag⟩ := final_of_cmpe (s := (s.examined 8).goto .fin) hopr
  rw [hresult, htag] at hfin
  simpa [cmpReport, State.examined, hflag, flagByte, flagCorrect] using hfin

/-- Variant A's outcome is the operation level's (42_compare.md R185, R186). -/
theorem endsWith_startEarlyExit {s : State} (hrun : s.InFlight) (hopr : s.opr = 0b10)
    (htrace : s.trace = [.trigRise]) :
    EndsWith (cmpASteps s.cfg.ref s.attempt) s.startEarlyExit
      (cmpReport s.cfg (cmpA s.cfg.ref s.attempt) (cmpATrace s.cfg.ref s.attempt)) := by
  have hrun' : s.startEarlyExit.InFlight := ⟨hrun.alone, hrun.err, hrun.ecode⟩
  unfold cmpASteps cmpATrace cmpAAccesses cmpTrace
  rw [← htrace]
  cases hfirst : firstMismatch s.cfg.ref s.attempt with
  | some k =>
    obtain ⟨hmiss, hmatch⟩ := firstMismatch_eq_some hfirst
    have hne : s.attempt ≠ s.cfg.ref := fun h => hmiss (by rw [h])
    simp only [attempt_get] at hmiss hmatch
    rw [cmpA, if_neg hne]
    exact endsWith_cmpaLoop_mismatch (s := s.startEarlyExit) hrun' hopr rfl rfl hmiss hmatch
  | none =>
    have heq := firstMismatch_eq_none hfirst
    rw [cmpA, if_pos heq]
    refine endsWith_cmpaLoop_match (s := s.startEarlyExit) hrun' hopr rfl rfl rfl fun j => ?_
    exact (attempt_get s j).symm.trans (by rw [heq]; rfl)

/-- Variant B's accumulator after the first `k` indices (42_compare.md R184, R185). -/
def State.difference (s : State) (k : Nat) : Byte :=
  ((List.finRange 8).take k).foldl
    (fun acc i => acc ||| (s.attempt.get i ^^^ s.cfg.ref.get i)) 0x00

theorem State.difference_eight (s : State) : s.difference 8 = cmpB s.cfg.ref s.attempt := rfl

theorem State.difference_succ (s : State) {k : Nat} (hk : k < 8) :
    s.difference (k + 1) =
      s.difference k ||| (s.refByte ⟨k, hk⟩ ^^^ s.coreByte k) := by
  simp only [State.difference, finRange_take_succ hk, List.foldl_append, List.foldl_cons,
    List.foldl_nil, attempt_get, State.refByte]
  rw [BitVec.xor_comm (s.coreByte k)]

/-- The state in which Variant B has examined the first `k` indices (42_compare.md R184). -/
def State.accumulated (s : State) (k : Nat) : State := { s.examined k with acc := s.difference k }

theorem State.accumulated_succ (s : State) {k : Nat} (hk : k < 8) (hst : s.st = .cmpbLoop) :
    s.accumulated (k + 1) = (s.accumulated k).compareB ⟨k, hk⟩ := by
  have hrest := s.examined_succ hk
  unfold State.accumulated State.compareB
  rw [hrest, s.difference_succ hk]
  simp only [State.goto, State.nextIndex, State.accumulate, State.emit, State.examined, hst]
  rfl

/-- Variant B goes through its indices whatever the bytes are (42_compare.md R184, R188). -/
theorem runSteps_cmpbLoop {s : State} (hin : s.inputs = []) (hst : s.st = .cmpbLoop)
    (hidx : s.idx = 0) (hacc : s.acc = 0x00) : ∀ k ≤ 8, runSteps k s = .next (s.accumulated k)
  | 0, _ => by
    unfold State.accumulated
    rw [State.examined_zero hidx, show s.difference 0 = s.acc from hacc.symm]
    rfl
  | k + 1, hk => by
    have hlast : (s.accumulated k).idx.toNat = k := s.examined_idx (by omega)
    have hstep : coreStep (s.accumulated k) = .next (s.accumulated (k + 1)) := by
      rw [coreStep_cmpbLoop_index (s := s.accumulated k) hst (by omega), s.accumulated_succ hk hst]
      simp only [hlast]
    have ih := runSteps_cmpbLoop hin hst hidx hacc k (by omega)
    exact (runSteps_add 1 ih).trans (runSteps_core hin hstep)

/-- Variant B's outcome is the operation level's (42_compare.md R185, R186). -/
theorem endsWith_startUniform {s : State} (hrun : s.InFlight) (hopr : s.opr = 0b11)
    (htrace : s.trace = [.trigRise]) :
    EndsWith cmpBSteps s.startUniform
      (cmpReport s.cfg (cmpB s.cfg.ref s.attempt) cmpBTrace) := by
  have hscan := runSteps_cmpbLoop (s := s.startUniform) hrun.alone rfl rfl rfl 8 (Nat.le_refl 8)
  refine EndsWith.after_run (k := 8) (l := 2) hscan
    (EndsWith.after_step hrun.alone (coreStep_cmpbLoop_end rfl rfl) ?_)
  have hfin := endsWith_fin (s := (s.startUniform.accumulated 8).goto .fin)
    ⟨hrun.alone, hrun.err, hrun.ecode⟩ rfl
  obtain ⟨hresult, htag⟩ := final_of_cmpu (s := (s.startUniform.accumulated 8).goto .fin) hopr
  rw [hresult, htag] at hfin
  unfold cmpBTrace cmpTrace
  rw [← htrace, ← s.difference_eight]
  exact hfin

/-! ### Every command -/

theorem decode_encode (i : Instr) : decode (encode i) = .ok i := by
  cases i <;> rfl

/-- An accepted command ends with the outcome of the operation level, after the stated number of core
steps (40_invocation.md R127, R130). -/
theorem endsWith_accepted (i : Instr) {s : State} (hin : s.inputs = []) :
    EndsWith (invocationSteps s (encode i)) (accepted i s) (report s (encode i)) := by
  have hrun : ∀ op, (s.clearOutcome.openWindow op).InFlight := fun _ => ⟨hin, rfl, rfl⟩
  unfold invocationSteps report
  rw [decode_encode i]
  cases i with
  | expf => exact endsWith_loadEngine (hrun 0b00) (by simp) rfl
  | expv => exact endsWith_loadEngine (hrun 0b01) (by simp) rfl
  | cmpe => exact endsWith_startEarlyExit (hrun 0b10) rfl rfl
  | cmpu => exact endsWith_startUniform (hrun 0b11) rfl rfl

/-- Only the decoded command of a legal byte matters to its outcome and its length. -/
theorem report_of_decode {c : Byte} {i : Instr} (h : decode c = .ok i) (s : State) :
    report s c = report s (encode i) ∧ invocationSteps s c = invocationSteps s (encode i) := by
  simp only [report, invocationSteps, h, decode_encode, and_self]

/-- An illegal byte is recorded at once and begins no invocation (60_exceptions.md R212). -/
theorem endsWith_illegal {s : State} {c : Byte} {r : Reject} (hin : s.inputs = []) (hst : s.st = .idle)
    (hd : decode c = .error r) :
    EndsWith (invocationSteps s c) (s.clearOutcome.raise .illcmd) (report s c) := by
  cases r
  unfold invocationSteps report
  rw [hd]
  refine endsWith_zero hin hst ?_
  have hstatus : (s.clearOutcome.raise .illcmd).statusByte = 0x14 :=
    State.statusByte_of (b := false) (d := false) (e := true) (c := .illcmd)
      (State.busy_eq_false.mpr hst) rfl rfl rfl
  simp [State.shown, hstatus]

/-- Settles O46: the command's acceptance, then the invocation's outcome by `endsWith_accepted`; an
illegal byte by `endsWith_illegal`. -/
theorem stepLevelRefinesTheOperationLevel : Obligations.StepLevelRefinesTheOperationLevel := by
  unfold Obligations.StepLevelRefinesTheOperationLevel
  intro s c hst hin
  have hstep : step s = writeCommand { s with inputs := [] } c := step_write hin
  have hidle : ({ s with inputs := [] } : State).busy = false := State.busy_eq_false.mpr hst
  rcases writeCommand_cases { s with inputs := [] } c with
    ⟨hbusy, _⟩ | ⟨_, i, hd, hw⟩ | ⟨_, ⟨r, hd⟩, hw⟩
  · exact absurd (hbusy.symm.trans hidle) (by decide)
  · obtain ⟨hreport, hsteps⟩ := report_of_decode hd s
    obtain ⟨u, hu, _, hend, hshown⟩ := endsWith_accepted i (s := { s with inputs := [] }) rfl
    exact ⟨_, u, hstep.trans hw, hsteps ▸ hu, hend, hreport ▸ hshown⟩
  · obtain ⟨u, hu, _, hend, hshown⟩ := endsWith_illegal (s := { s with inputs := [] }) rfl hst hd
    exact ⟨_, u, hstep.trans hw, hu, hend, hshown⟩

/-! ### What an outcome depends on -/

theorem expStepsOf_le (o : ExpOperands) : expStepsOf o ≤ 35 := by
  have hlen := bitlen_le o.ex
  have hones := popcount_le o.ex
  unfold expStepsOf expSteps
  split <;> omega

theorem cmpASteps_le (ref x : Vector Byte 8) : cmpASteps ref x ≤ 10 := by
  unfold cmpASteps
  split <;> omega

/-- No invocation takes more than 35 core steps (40_invocation.md R127, R128). -/
theorem invocationSteps_le (s : State) (i : Instr) : invocationSteps s (encode i) ≤ 35 := by
  unfold invocationSteps
  rw [decode_encode i]
  cases i with
  | expf => exact expStepsOf_le _
  | expv => exact expStepsOf_le _
  | cmpe => exact (cmpASteps_le _ _).trans (by decide)
  | cmpu => exact (by decide : cmpBSteps ≤ 35)

/-- The operation level reads the constants and the command's own buffer bytes only
(00_scope.md R12). -/
theorem report_congr {i : Instr} {s₁ s₂ : State} (hcfg : s₁.cfg = s₂.cfg)
    (hbytes : ∀ k < readsBelow i, s₁.coreByte k = s₂.coreByte k) :
    report s₁ (encode i) = report s₂ (encode i) := by
  have hattempt : (∀ k < 8, s₁.coreByte k = s₂.coreByte k) → s₁.attempt = s₂.attempt := fun h =>
    congrArg Vector.ofFn (funext fun j => h j.val j.isLt)
  unfold report
  rw [decode_encode i]
  cases i with
  | expf => simp only [fixedOperands, hcfg]
  | expv =>
    simp only [bufferOperands, hcfg, hbytes 0 (by decide), hbytes 1 (by decide), hbytes 2 (by decide)]
  | cmpe => simp only [hcfg, hattempt hbytes]
  | cmpu => simp only [hcfg, hattempt hbytes]

/-- Settles O51: both runs end with the outcome of the operation level (`endsWith_accepted`), which
depends on nothing else (`report_congr`). -/
theorem outcomeForgetsTheHistory : Obligations.OutcomeForgetsTheHistory := by
  unfold Obligations.OutcomeForgetsTheHistory
  intro i s₁ s₂ hst₁ hst₂ hin₁ hin₂ hcfg hbytes
  have hend : ∀ {s : State}, s.inputs = [] → EndsWith 35 (accepted i s) (report s (encode i)) :=
    fun hin => (endsWith_accepted i hin).of_le (invocationSteps_le _ i)
  obtain ⟨u₁, hu₁, _, hidle₁, hshown₁⟩ := hend hin₁
  obtain ⟨u₂, hu₂, _, _, hshown₂⟩ := hend hin₂
  refine ⟨accepted i s₁, accepted i s₂, u₁, u₂, exec_idle (State.busy_eq_false.mpr hst₁) i,
    exec_idle (State.busy_eq_false.mpr hst₂) i, hu₁, hu₂, hidle₁, ?_⟩
  rw [hshown₁, hshown₂, report_congr hcfg hbytes]

end Sys2Proof.Machine
end

section
/-! PROOFS. The registers whose every change the spec ties to a named event: the constants, `TRIG`,
`DONE`, `ERR`, `RESULT` and `RTAG` (10_state.md R31 to R37). What one step can do to them is said once,
by `PortMove`; each statement is then read off its cases. -/

namespace Sys2Proof.Machine

/-- The constants, the level of `TRIG`, the outcome bits of `STATUS` and the result registers. -/
structure PortRegs where
  cfg : Config
  trig : Bool
  done : Bool
  err : Bool
  result : Byte
  rtag : Byte

/-- The port registers of a state. -/
def State.portRegs (s : State) : PortRegs where
  cfg := s.cfg
  trig := s.trig
  done := s.done
  err := s.err
  result := s.result
  rtag := s.rtag

/-! ### What the host's entries do to the port registers -/

theorem accepted_portRegs (i : Instr) (s : State) :
    (accepted i s).portRegs = { s.portRegs with trig := true, done := false, err := false } := by
  cases i <;> rfl

theorem hostWait_portRegs (s : State) : (hostWait s).portRegs = s.portRegs := by
  rcases hostWait_cases s with ⟨_, h⟩ | ⟨_, h⟩ <;> rw [h] <;> rfl

theorem hostAnswer_portRegs (s : State) : (hostAnswer s).portRegs = s.portRegs := by
  rcases hostAnswer_cases s with ⟨_, h⟩ | ⟨_, h⟩ <;> rw [h] <;> rfl

/-! ### What one step does to the port registers -/

/-- Everything a step from `s` to `t` can do to the port registers: only acceptance, an illegal byte,
the two ends of an invocation and a reset event touch them. -/
inductive PortMove (s t : State) : Prop where
  | keep (h : t.portRegs = s.portRegs)
  | accept {c : Byte} {i : Instr} {rest : List Input} (hin : s.inputs = .wr addrCmd c :: rest)
      (hst : s.st = .idle) (hd : decode c = .ok i)
      (h : t.portRegs = { s.portRegs with trig := true, done := false, err := false })
  | illegal {c : Byte} {rest : List Input} (hin : s.inputs = .wr addrCmd c :: rest)
      (hst : s.st = .idle) (h : t.portRegs = { s.portRegs with done := false, err := true })
  | reject (hst : s.st = .expChk) (hm : s.mod = 0) (hend : t.st = .idle)
      (h : t.portRegs = { s.portRegs with trig := false, done := false, err := true })
  | fin (hst : s.st = .fin) (hend : t.st = .idle)
      (h : t.portRegs = { s.portRegs with
        trig := false, done := true, result := s.finalResult, rtag := s.finalTag })
  | reset {rest : List Input} (hin : s.inputs = .rst :: rest) (hend : t.st = .idle)
      (h : t.portRegs =
        { cfg := s.cfg, trig := false, done := false, err := false
          result := (Config.afterReset s.epoch).result, rtag := (Config.afterReset s.epoch).rtag })

/-- Of the core steps, only the zero-modulus exit and `FIN` touch the port registers, on a turn of the
core as much as alone. -/
theorem CoreMove.portMove {s t : State} {rest : List Input} (m : CoreMove { s with inputs := rest } t) :
    PortMove s t := by
  cases m with
  | reject hst hm => exact .reject hst hm rfl rfl
  | fin hst => exact .fin hst rfl rfl
  | rest | check | loopEnd | bitOne | bitZero | mul | sqr | shr | aEnd | aMiss | aHit | bEnd | bIndex =>
    exact .keep rfl

/-- If a step answers a next state, one of the moves of the port registers was made. -/
theorem step_portMove {s t : State} (hstep : step s = .next t) : PortMove s t := by
  cases step_move hstep with
  | alone _ m => exact CoreMove.portMove (rest := s.inputs) m
  | turn _ m => exact m.portMove
  | ignored => exact .keep rfl
  | stored => exact .keep rfl
  | command hin hb hd => exact .accept hin (State.busy_eq_false.mp hb) hd (accepted_portRegs _ _)
  | illegal hin hb => exact .illegal hin (State.busy_eq_false.mp hb) rfl
  | read => exact .keep rfl
  | reset hin => exact .reset hin rfl rfl
  | poll => exact .keep (hostWait_portRegs _)
  | answer => exact .keep (hostAnswer_portRegs _)

/-! ### The statements -/

/-- Settles O36: no move of the port registers has another configuration. -/
theorem constantsAreNeverWritten : Obligations.ConstantsAreNeverWritten := by
  unfold Obligations.ConstantsAreNeverWritten
  intro s t hstep
  cases step_portMove hstep with
  | keep h | accept _ _ _ h | illegal _ _ h | reject _ _ _ h | fin _ _ h | reset _ _ h =>
    exact congrArg PortRegs.cfg h

/-- The four legal command bytes are the values below 4 (30_encoding.md R91, R92). -/
theorem toNat_lt_of_decode {c : Byte} {i : Instr} (h : decode c = .ok i) : c.toNat < 4 := by
  unfold decode at h
  split at h
  · cases h
  · next hzero =>
    have hbits : (fieldZero c).toNat = 0 := congrArg BitVec.toNat (not_not.mp hzero)
    have hlt := c.isLt
    simp only [fieldZero, BitVec.extractLsb'_toNat, Nat.shiftRight_eq_div_pow] at hbits
    omega

/-- Settles O33: acceptance raises `TRIG`; the two ends of an invocation and a reset event drop it; the
other moves keep it. -/
theorem triggerMovesOnlyAtWindowEdges : Obligations.TriggerMovesOnlyAtWindowEdges := by
  unfold Obligations.TriggerMovesOnlyAtWindowEdges
  intro s t hstep hmoved
  have rises : t.trig = true → s.trig = false := fun h => by simpa [h] using hmoved
  have falls : t.trig = false → s.trig = true := fun h => by simpa [h] using hmoved
  cases step_portMove hstep with
  | keep h => exact absurd (congrArg PortRegs.trig h) hmoved
  | accept hin hst hd h =>
    exact .inl ⟨rises (congrArg PortRegs.trig h), hst, _, _, hin, toNat_lt_of_decode hd⟩
  | illegal _ _ h => exact absurd (congrArg PortRegs.trig h) hmoved
  | reject hst hm hend h => exact .inr ⟨falls (congrArg PortRegs.trig h), hend, .inr (.inl ⟨hst, hm⟩)⟩
  | fin hst hend h => exact .inr ⟨falls (congrArg PortRegs.trig h), hend, .inl hst⟩
  | reset hin hend h => exact .inr ⟨falls (congrArg PortRegs.trig h), hend, .inr (.inr ⟨_, hin⟩)⟩

/-- Settles O34: every move but `FIN` and a reset event keeps the two registers and sets no `DONE`. -/
theorem resultIsWrittenOnlyByFin : Obligations.ResultIsWrittenOnlyByFin := by
  unfold Obligations.ResultIsWrittenOnlyByFin
  intro s t hstep hwritten
  have unwritten : t.result = s.result → t.rtag = s.rtag → (t.done = true → s.done = true) → False := by
    intro hresult hrtag hdone
    rcases hwritten with hne | hne | ⟨hclear, hset⟩
    · exact hne hresult
    · exact hne hrtag
    · exact absurd (hdone hset) (by simp [hclear])
  cases step_portMove hstep with
  | keep h =>
    have hdone : t.done = s.done := congrArg PortRegs.done h
    exact (unwritten (congrArg PortRegs.result h) (congrArg PortRegs.rtag h) hdone.symm.trans).elim
  | accept _ _ _ h | illegal _ _ h | reject _ _ _ h =>
    have hdone : t.done = false := congrArg PortRegs.done h
    exact (unwritten (congrArg PortRegs.result h) (congrArg PortRegs.rtag h) (by simp [hdone])).elim
  | fin hst hend h => exact .inl ⟨hst, hend, congrArg PortRegs.done h⟩
  | reset hin => exact .inr ⟨_, hin⟩

/-- While the unit is busy no outcome is shown (10_state.md R31). -/
theorem State.Inv.no_outcome_of_busy {s : State} (hinv : s.Inv) (hst : s.st ≠ .idle) :
    s.done = false ∧ s.err = false := by
  obtain ⟨hdone, herr, _⟩ := hinv.status
  simpa [State.busy_eq_true.mpr hst] using And.intro hdone herr

/-- Settles O35: `FIN` only sets `DONE`, the zero-modulus exit finds no outcome to clear
(`State.Inv.no_outcome_of_busy`), and the other moves that clear one are the stated two. -/
theorem outcomeIsStickyUntilTheNextCommand : Obligations.OutcomeIsStickyUntilTheNextCommand := by
  unfold Obligations.OutcomeIsStickyUntilTheNextCommand
  intro s t hinv hstep hcleared
  have sticky : (s.done = true → t.done = true) → (s.err = true → t.err = true) → False := by
    intro hdone herr
    rcases hcleared with ⟨hset, hclear⟩ | ⟨hset, hclear⟩
    · exact absurd (hdone hset) (by simp [hclear])
    · exact absurd (herr hset) (by simp [hclear])
  cases step_portMove hstep with
  | keep h =>
    have hdone : t.done = s.done := congrArg PortRegs.done h
    have herr : t.err = s.err := congrArg PortRegs.err h
    exact (sticky hdone.trans herr.trans).elim
  | accept hin hst => exact .inl ⟨hst, _, _, hin⟩
  | illegal hin hst => exact .inl ⟨hst, _, _, hin⟩
  | reject hst _ _ _ =>
    obtain ⟨hdone, herr⟩ := hinv.no_outcome_of_busy (by simp [hst])
    exact (sticky (by simp [hdone]) (by simp [herr])).elim
  | fin _ _ h =>
    have hdone : t.done = true := congrArg PortRegs.done h
    have herr : t.err = s.err := congrArg PortRegs.err h
    exact (sticky (fun _ => hdone) herr.trans).elim
  | reset hin => exact .inr ⟨_, hin⟩

/-! ### Reset -/

theorem State.reset_written (i : Nat) : State.reset.written i = false := by
  simp [State.written, State.reset]

/-- Settles O18: each field is written out in `State.reset`; no buffer byte is marked
(`State.reset_written`). -/
theorem resetStateIsTheResetTable : Obligations.ResetStateIsTheResetTable := by
  unfold Obligations.ResetStateIsTheResetTable
  exact ⟨rfl, rfl, rfl, rfl, rfl, rfl, rfl, fun i _ => State.reset_written i,
    rfl, rfl, rfl, rfl, rfl, rfl⟩

/-- Settles O29: in `IDLE` with `TRIG` low, an empty trace and an empty buffer each clause holds, most of
them because no unit is running. -/
theorem invariantHoldsAtReset : Obligations.InvariantHoldsAtReset := by
  unfold Obligations.InvariantHoldsAtReset
  have hst : State.reset.st = .idle := rfl
  exact {
    bracket := rfl
    status := ⟨rfl, rfl, rfl⟩
    ecode := rfl
    opr := by simp [State.oprOk, hst]
    modulus := by simp [State.modulusOk, hst]
    comparator := by simp [State.comparatorOk, hst]
    buffer := ⟨State.reset_ibuf_wf, rfl⟩
    trace := rfl }

end Sys2Proof.Machine
end

section
/-! PROOFS. What the registers of 20_memory.md let through: every entry of the total order, a
reserved address included, does exactly one of the moves of Laws/Steps.lean, and each statement is read off
the moves. There `step_move` says that a step is one of them; here `step_of_move` says that each of them
is what the step does. -/

namespace Sys2Proof.Machine

/-! ### Each move of the core is what its core step does -/

theorem coreStep_of_move {s t : State} (m : CoreMove s t) : coreStep s = .next t := by
  cases m with
  | rest h => exact coreStep_idle h
  | reject h hm => exact coreStep_expChk_zero h hm
  | check h hm => exact coreStep_expChk_pos h hm
  | loopEnd h he => exact coreStep_expHead_end h he
  | bitOne h he hb => exact coreStep_expHead_one h he hb
  | bitZero h he hb => exact coreStep_expHead_zero h he hb
  | mul h hm => exact coreStep_expMul h hm
  | sqr h hm => exact coreStep_expSqr h hm
  | shr h => exact coreStep_expShr h
  | aEnd h hi => exact coreStep_cmpaLoop_end h hi
  | aMiss h i hi hb =>
    have hlt : s.idx.toNat < 8 := hi ▸ i.isLt
    obtain rfl : i = ⟨s.idx.toNat, hlt⟩ := Fin.ext hi.symm
    rw [coreStep_cmpaLoop_index h hlt, compareA_mismatch hb]
  | aHit h i hi hb =>
    have hlt : s.idx.toNat < 8 := hi ▸ i.isLt
    obtain rfl : i = ⟨s.idx.toNat, hlt⟩ := Fin.ext hi.symm
    rw [coreStep_cmpaLoop_index h hlt, compareA_match hb]
  | bEnd h hi => exact coreStep_cmpbLoop_end h hi
  | bIndex h i hi =>
    have hlt : s.idx.toNat < 8 := hi ▸ i.isLt
    obtain rfl : i = ⟨s.idx.toNat, hlt⟩ := Fin.ext hi.symm
    rw [coreStep_cmpbLoop_index h hlt, State.compareB]
  | fin h => exact coreStep_fin h

/-! ### Each move of the host is what its entry does -/

theorem hostWrite_cmd (s : State) (c : Byte) : hostWrite s addrCmd c = writeCommand s c := by
  simp [hostWrite]

theorem hostWrite_buffer {s : State} {a : HostAddr} {i : Nat} (h : bufferIndex a = some i) (v : Byte) :
    hostWrite s a v = .next (s.writeBuffer i v) := by
  have hne : a ≠ addrCmd := by rintro rfl; cases h
  simp [hostWrite, hne, h]

theorem hostWrite_unmapped {s : State} {a : HostAddr} (ha : a ≠ addrCmd) (h : bufferIndex a = none)
    (v : Byte) : hostWrite s a v = .next s := by
  simp [hostWrite, ha, h]

/-- While busy no host write has an effect, whatever its address (20_memory.md R68). -/
theorem hostWrite_busy {s : State} (hb : s.busy = true) (a : HostAddr) (v : Byte) :
    hostWrite s a v = .next s := by
  by_cases ha : a = addrCmd
  · rw [ha, hostWrite_cmd, writeCommand, if_pos hb]
  · cases hi : bufferIndex a with
    | none => exact hostWrite_unmapped ha hi v
    | some i => rw [hostWrite_buffer hi, State.writeBuffer, if_pos hb]

/-- A write that is made while busy, or to an address the host cannot write, changes nothing
(20_memory.md R64, R65, R68). -/
theorem hostWrite_ignored {s : State} {a : HostAddr} {v : Byte}
    (hw : s.busy = true ∨ (a ≠ addrCmd ∧ bufferIndex a = none)) :
    hostWrite s a v = .next s := by
  rcases hw with hb | ⟨ha, hi⟩
  · exact hostWrite_busy hb a v
  · exact hostWrite_unmapped ha hi v

theorem hostWrite_stored {s : State} {a : HostAddr} {v : Byte} {i : Nat} (hb : s.busy = false)
    (hi : bufferIndex a = some i) : hostWrite s a v = .next (s.storeByte i v) := by
  simp [hostWrite_buffer hi, State.writeBuffer, hb]

theorem hostWrite_command {s : State} {c : Byte} {i : Instr} (hb : s.busy = false)
    (hd : decode c = .ok i) : hostWrite s addrCmd c = .next (accepted i s) := by
  simp [hostWrite_cmd, writeCommand, hb, hd, exec_idle hb]

theorem hostWrite_illegal {s : State} {c : Byte} {r : Reject} (hb : s.busy = false)
    (hd : decode c = .error r) : hostWrite s addrCmd c = .next (s.clearOutcome.raise .illcmd) := by
  cases r
  simp [hostWrite_cmd, writeCommand, hb, hd]

theorem step_of_move {s t : State} (m : Move s t) : step s = .next t := by
  cases m with
  | alone hin m => exact (step_alone hin).trans (coreStep_of_move m)
  | turn hin m => exact (step_core hin).trans (coreStep_of_move m)
  | ignored hin hw => exact (step_write hin).trans (hostWrite_ignored hw)
  | stored hin hb hi => exact (step_write hin).trans (hostWrite_stored hb hi)
  | command hin hb hd => exact (step_write hin).trans (hostWrite_command hb hd)
  | illegal hin hb hd => exact (step_write hin).trans (hostWrite_illegal hb hd)
  | read hin => exact step_read hin
  | reset hin => exact step_reset hin
  | poll hin => exact step_wait hin
  | answer hin => exact step_answer hin

/-! ### The Reference Secret -/

section
variable (s : State) (r : Vector Byte 8)

theorem accepted_withSecret (i : Instr) : accepted i (s.withSecret r) = (accepted i s).withSecret r := by
  cases i <;> rfl

/-- No port shows the secret (20_memory.md R75), so the host receives the same byte. -/
theorem hostRead_withSecret (a : HostAddr) :
    (s.withSecret r).hostRead a = (s.hostRead a).withSecret r := rfl

theorem hostWait_withSecret : hostWait (s.withSecret r) = (hostWait s).withSecret r :=
  (apply_ite (State.withSecret · r) (statusBusy s.statusByte = true)
    ((s.hostRead addrStatus).prepend [.core, .wait]) (s.hostRead addrStatus)).symm

theorem hostAnswer_withSecret : hostAnswer (s.withSecret r) = (hostAnswer s).withSecret r :=
  (apply_ite (State.withSecret · r) (statusDone s.statusByte = true)
    ((s.hostRead addrStatus).prepend [.rd addrRtag, .rd addrResult]) (s.hostRead addrStatus)).symm

end

/-- Outside the two loops no core step reads the secret (20_memory.md R67): each move is open to the
state with another secret too, and leads to the same state with that secret. -/
theorem CoreMove.withSecret {s t : State} (m : CoreMove s t) (ha : s.st ≠ .cmpaLoop)
    (hb : s.st ≠ .cmpbLoop) (r : Vector Byte 8) : CoreMove (s.withSecret r) (t.withSecret r) := by
  cases m with
  | rest h => exact .rest h
  | reject h hm => exact .reject (s := s.withSecret r) h hm
  | check h hm => exact .check (s := s.withSecret r) h hm
  | loopEnd h he => exact .loopEnd (s := s.withSecret r) h he
  | bitOne h he hbit => exact .bitOne (s := s.withSecret r) h he hbit
  | bitZero h he hbit => exact .bitZero (s := s.withSecret r) h he hbit
  | mul h hm => exact .mul (s := s.withSecret r) h hm
  | sqr h hm => exact .sqr (s := s.withSecret r) h hm
  | shr h => exact .shr (s := s.withSecret r) h
  | aEnd h | aMiss h | aHit h => exact absurd h ha
  | bEnd h | bIndex h => exact absurd h hb
  | fin h => exact .fin (s := s.withSecret r) h

theorem Move.withSecret {s t : State} (m : Move s t) (ha : s.st ≠ .cmpaLoop)
    (hb : s.st ≠ .cmpbLoop) (r : Vector Byte 8) : Move (s.withSecret r) (t.withSecret r) := by
  cases m with
  | alone hin m => exact .alone (s := s.withSecret r) hin (m.withSecret ha hb r)
  | turn hin m => exact .turn (s := s.withSecret r) hin (m.withSecret ha hb r)
  | ignored hin hw => exact .ignored (s := s.withSecret r) hin hw
  | stored hin hidle hi => exact .stored (s := s.withSecret r) hin hidle hi
  | command hin hidle hd =>
    exact accepted_withSecret _ r _ ▸ Move.command (s := s.withSecret r) hin hidle hd
  | illegal hin hidle hd => exact .illegal (s := s.withSecret r) hin hidle hd
  | read hin => exact hostRead_withSecret _ r _ ▸ Move.read (s := s.withSecret r) hin
  | reset hin => exact .reset (s := s.withSecret r) hin
  | poll hin => exact hostWait_withSecret _ r ▸ Move.poll (s := s.withSecret r) hin
  | answer hin => exact hostAnswer_withSecret _ r ▸ Move.answer (s := s.withSecret r) hin

/-- Settles O39: the move the step made is open to the state with another secret (`Move.withSecret`), and
is what that state's step does (`step_of_move`). -/
theorem secretIsReadOnlyByTheComparators : Obligations.SecretIsReadOnlyByTheComparators := by
  unfold Obligations.SecretIsReadOnlyByTheComparators
  intro s t r ha hb hstep
  exact step_of_move ((step_move hstep).withSecret ha hb r)

/-! ### Addresses without a register of the host's -/

theorem bufferIndex_eq_none {a : HostAddr} (h : a.toNat < 0x10 ∨ 0x19 < a.toNat) :
    bufferIndex a = none := by
  unfold bufferIndex
  exact if_neg (by omega)

/-- Only the three output ports answer anything but 0x00 (20_memory.md R61, R64). -/
theorem portByte_eq_zero (s : State) {a : HostAddr} (hstatus : a ≠ addrStatus) (hresult : a ≠ addrResult)
    (hrtag : a ≠ addrRtag) : s.portByte a = 0x00 := by
  unfold State.portByte
  rw [if_neg hstatus, if_neg hresult, if_neg hrtag]

/-- Settles O15: at such an address there is no command port and no buffer byte, so the write is
ignored. -/
theorem hostWritesOnlyCommandAndBuffer : Obligations.HostWritesOnlyCommandAndBuffer := by
  unfold Obligations.HostWritesOnlyCommandAndBuffer
  intro s a v rest hin ha hrange
  exact step_of_move (.ignored hin (.inr ⟨ha, bufferIndex_eq_none hrange⟩))

/-- Settles O14: a reserved address is none of the first four ports; its read answers 0x00
(`portByte_eq_zero`), its write is one of those of O15. -/
theorem reservedAddressesAreInert : Obligations.ReservedAddressesAreInert := by
  unfold Obligations.ReservedAddressesAreInert
  intro s a v rest hreserved
  have hne : ∀ b : HostAddr, b.toNat < 4 → a ≠ b := by
    rintro b hb rfl
    omega
  refine ⟨fun hin => ?_, fun hin =>
    hostWritesOnlyCommandAndBuffer s a v rest hin (hne addrCmd (by decide)) (by omega)⟩
  have hbyte : ({ s with inputs := rest } : State).portByte a = 0x00 :=
    portByte_eq_zero _ (hne addrStatus (by decide)) (hne addrResult (by decide))
      (hne addrRtag (by decide))
  rw [step_read hin, State.hostRead, hbyte]

/-! ### The stored bytes of the buffer -/

theorem CoreMove.ibuf_eq {s t : State} (m : CoreMove s t) : t.ibuf = s.ibuf := by
  cases m <;> rfl

theorem accepted_ibuf (i : Instr) (s : State) : (accepted i s).ibuf = s.ibuf := by
  cases i <;> rfl

theorem hostWait_ibuf (s : State) : (hostWait s).ibuf = s.ibuf := by
  rcases hostWait_cases s with ⟨_, h⟩ | ⟨_, h⟩ <;> rw [h] <;> rfl

theorem hostAnswer_ibuf (s : State) : (hostAnswer s).ibuf = s.ibuf := by
  rcases hostAnswer_cases s with ⟨_, h⟩ | ⟨_, h⟩ <;> rw [h] <;> rfl

/-- Everything a step can do to the stored bytes: nothing, one store of the host's, or a reset event. -/
theorem Move.ibuf_cases {s t : State} (m : Move s t) :
    t.ibuf = s.ibuf ∨
    (∃ a v i rest, s.inputs = .wr a v :: rest ∧ s.busy = false ∧ bufferIndex a = some i ∧
      t.ibuf = s.ibuf.write i v) ∨
    ∃ rest, s.inputs = .rst :: rest := by
  cases m with
  | alone _ m => exact .inl m.ibuf_eq
  | turn _ m => exact .inl m.ibuf_eq
  | command => exact .inl (accepted_ibuf _ _)
  | poll => exact .inl (hostWait_ibuf _)
  | answer => exact .inl (hostAnswer_ibuf _)
  | ignored | illegal | read => exact .inl rfl
  | stored hin hb hi => exact .inr (.inl ⟨_, _, _, _, hin, hb, hi, rfl⟩)
  | reset hin => exact .inr (.inr ⟨_, hin⟩)

/-- Settles O37: a store leaves every other index alone (`Memory.read_write_other`), so the byte that
changed is the one the host wrote. -/
theorem bufferChangesOnlyByHostWrite : Obligations.BufferChangesOnlyByHostWrite := by
  unfold Obligations.BufferChangesOnlyByHostWrite
  intro s t i hstep hchanged
  rcases (step_move hstep).ibuf_cases with hkeep | ⟨a, v, j, rest, hin, hidle, hj, hstore⟩ | hreset
  · exact absurd (by rw [hkeep]) hchanged
  · obtain rfl : j = i := by
      by_contra hne
      exact hchanged (by rw [hstore, Memory.read_write_other hne])
    obtain ⟨hlt, haddr⟩ := bufferIndex_eq_some hj
    exact .inl ⟨State.busy_eq_false.mp hidle, hlt, a, v, rest, hin, haddr⟩
  · exact .inr hreset

/-! ### The turns of the core -/

/-- Settles O20, by the equation of `step` for each of the two ways the core comes to its turn. -/
theorem coreTurnIsOneCoreStep : Obligations.CoreTurnIsOneCoreStep := by
  unfold Obligations.CoreTurnIsOneCoreStep
  exact fun _ => ⟨step_alone, fun _ => step_core, coreStep_idle⟩

end Sys2Proof.Machine
end

section
/-! PROOFS. The rules of 30_encoding.md: the decoder and the encoder (R90 to R92, R100), the `STATUS` byte
(R97), and host programs (R98, R99). A program is followed in three parts: its buffer writes and its
command (`runSteps_deliver`), its `WAIT` beside the run of the core alone (`reaches_wait_end`), and the
tail of its `GET` (`runSteps_answer_done`); `reaches_response` joins them, so that what a program reads is
the outcome of the operation level. -/

namespace Sys2Proof.Machine

/-! ### The decoder and the encoder -/

/-- With the field `ZERO` clear a byte is its two low bits (30_encoding.md R90). -/
theorem eq_lowBits_of_fieldZero {c : Byte} (h : fieldZero c = 0) : c = 0#6 ++ c.extractLsb' 0 2 := by
  have hsplit : c = c.extractLsb' 2 6 ++ c.extractLsb' 0 2 := by
    rw [BitVec.extractLsb'_append_extractLsb'_eq_extractLsb' (show 2 = 0 + 2 from rfl)]
    exact BitVec.extractLsb'_eq_self.symm
  rwa [show c.extractLsb' 2 6 = 0#6 from h] at hsplit

theorem exists_encode_eq {c : Byte} (h : c.toNat < 4) : ∃ i, encode i = c := by
  have hofNat : ∀ n < 4, ∃ i, encode i = BitVec.ofNat 8 n
    | 0, _ => ⟨.expf, rfl⟩
    | 1, _ => ⟨.expv, rfl⟩
    | 2, _ => ⟨.cmpe, rfl⟩
    | 3, _ => ⟨.cmpu, rfl⟩
  simpa using hofNat c.toNat h

/-- A byte that decodes is one of the four legal ones, and each of those is an encoding. -/
theorem encode_of_decode {c : Byte} {i : Instr} (h : decode c = .ok i) : encode i = c := by
  obtain ⟨j, rfl⟩ := exists_encode_eq (toNat_lt_of_decode h)
  rw [decode_encode] at h
  cases h
  rfl

/-- Settles O3, by `decode_encode` and `encode_of_decode`. -/
theorem encodeAndDecodeAgree : Obligations.EncodeAndDecodeAgree := by
  unfold Obligations.EncodeAndDecodeAgree
  exact ⟨fun i _ => decode_encode i, fun _ _ => encode_of_decode⟩

/-- Settles O1: the legal bytes are the encodings; each illegal one has a bit of `ZERO` set. -/
theorem commandBytesDecodeAsTheOpcodeMapSays : Obligations.CommandBytesDecodeAsTheOpcodeMapSays := by
  unfold Obligations.CommandBytesDecodeAsTheOpcodeMapSays
  exact ⟨decode_encode .expf, decode_encode .expv, decode_encode .cmpe, decode_encode .cmpu,
    rfl, rfl, rfl, rfl⟩

/-- Settles O2: with `ZERO` clear the byte is its low bits (`eq_lowBits_of_fieldZero`), hence the encoding
of the command they select. -/
theorem everyByteGetsOneVerdict : Obligations.EveryByteGetsOneVerdict := by
  unfold Obligations.EveryByteGetsOneVerdict
  refine fun c => ⟨fun h => if_pos h, fun h => ?_⟩
  have hc := eq_lowBits_of_fieldZero h
  refine ⟨fun hlow => ?_, fun hlow => ?_, fun hlow => ?_, fun hlow => ?_⟩ <;> rw [hc, hlow]
  · exact decode_encode .expf
  · exact decode_encode .expv
  · exact decode_encode .cmpe
  · exact decode_encode .cmpu

/-- A legal command byte runs its command, which itself ignores it while busy (40_invocation.md R122). -/
theorem writeCommand_of_decode {c : Byte} {i : Instr} (hd : decode c = .ok i) (s : State) :
    writeCommand s c = exec i s := by
  cases hb : s.busy
  · simp [writeCommand, hb, hd]
  · rw [exec_busy hb, writeCommand, if_pos hb]

theorem decode_of_decodeTableWord {nbits w : Nat} {i : Instr} (h : decodeTableWord nbits w = some i) :
    decode (tableByte nbits w) = .ok i := by
  unfold decodeTableWord at h
  split at h
  · split at h
    · next j hj => cases h; exact hj
    · cases h
  · cases h

/-- Settles O5: the placed entry is a write to `CMD` of the byte the table word decodes from. -/
theorem fetchWordIsRunNext : Obligations.FetchWordIsRunNext := by
  unfold Obligations.FetchWordIsRunNext
  intro s i w _ hword
  calc step (s.withFetchWord 8 w) = hostWrite s addrCmd (tableByte 8 w) := step_write rfl
    _ = writeCommand s (tableByte 8 w) := hostWrite_cmd s _
    _ = exec i s := writeCommand_of_decode (decode_of_decodeTableWord hword) s

/-! ### The STATUS byte -/

/-- The layout of the `STATUS` byte (30_encoding.md R97). -/
theorem State.statusByte_layout (s : State) :
    s.statusByte.getLsbD 0 = s.busy ∧ s.statusByte.getLsbD 1 = s.done ∧
    s.statusByte.getLsbD 2 = s.err ∧ s.statusByte.extractLsb' 3 2 = s.ecode.code ∧
    s.statusByte.extractLsb' 5 3 = 0 := by
  unfold State.statusByte
  refine ⟨?_, ?_, ?_, BitVec.eq_of_getLsbD_eq fun i hi => ?_,
    BitVec.eq_of_getLsbD_eq fun i _ => ?_⟩ <;>
    simp only [BitVec.getLsbD_extractLsb', BitVec.getLsbD_append]
  · simp
  · simp
  · simp
  · simp [hi]
  · simp

theorem State.Inv.ecode_none {s : State} (hinv : s.Inv) (herr : s.err = false) : s.ecode = .none := by
  have hecode : s.err = (s.ecode != .none) := hinv.ecode
  simpa [herr] using hecode

/-- The `STATUS` byte of an idle unit with a result (30_encoding.md R97). -/
theorem State.Inv.statusByte_of_done {s : State} (hinv : s.Inv) (hdone : s.done = true) :
    s.statusByte = 0x02 := by
  obtain ⟨hbusyDone, _, hdoneErr⟩ := hinv.status
  have hbusy : s.busy = false := by simpa [hdone] using hbusyDone
  have herr : s.err = false := by simpa [hdone] using hdoneErr
  exact State.statusByte_of hbusy hdone herr (hinv.ecode_none herr)

/-- `BUSY`, `DONE` and `ERR` exclude each other, and `ECODE` goes with `ERR` (10_state.md R31): five
values are left. -/
theorem State.Inv.statusByte_cases {s : State} (hinv : s.Inv) :
    s.statusByte = 0x00 ∨ s.statusByte = 0x01 ∨ s.statusByte = 0x02 ∨ s.statusByte = 0x0C ∨
      s.statusByte = 0x14 := by
  obtain ⟨_, hbusyErr, _⟩ := hinv.status
  cases hdone : s.done with
  | true => exact .inr (.inr (.inl (hinv.statusByte_of_done hdone)))
  | false =>
    cases herr : s.err with
    | false =>
      have hcode := hinv.ecode_none herr
      cases hbusy : s.busy with
      | false => exact .inl (State.statusByte_of hbusy hdone herr hcode)
      | true => exact .inr (.inl (State.statusByte_of hbusy hdone herr hcode))
    | true =>
      have hbusy : s.busy = false := by simpa [herr] using hbusyErr
      have hecode : s.err = (s.ecode != .none) := hinv.ecode
      cases hcode : s.ecode with
      | none => simp [herr, hcode] at hecode
      | modzero => exact .inr (.inr (.inr (.inl (State.statusByte_of hbusy hdone herr hcode))))
      | illcmd => exact .inr (.inr (.inr (.inr (State.statusByte_of hbusy hdone herr hcode))))

theorem portByte_status (s : State) : s.portByte addrStatus = s.statusByte := if_pos rfl

theorem portByte_rtag {s : State} (h : s.done = true) : s.portByte addrRtag = s.rtag := by
  simp [State.portByte, addrStatus, addrResult, addrRtag, h]

theorem portByte_result {s : State} (h : s.done = true) : s.portByte addrResult = s.result := by
  simp [State.portByte, addrStatus, addrResult, h]

/-- Settles O17: the byte read is `STATUS` (`portByte_status`), with its layout
(`State.statusByte_layout`) and its five values (`State.Inv.statusByte_cases`). -/
theorem statusReadsOneOfFiveValues : Obligations.StatusReadsOneOfFiveValues := by
  unfold Obligations.StatusReadsOneOfFiveValues
  intro s rest hinv hin
  obtain ⟨hbusy, hdone, herr, hecode, hzero⟩ := s.statusByte_layout
  have hread : step s = .next { s with inputs := rest, reads := s.reads ++ [(0x01, s.statusByte)] } :=
    (step_read hin).trans (by rw [← portByte_status s]; rfl)
  exact ⟨s.statusByte, hread, hbusy, hdone, herr, hecode, hzero, hinv.statusByte_cases⟩

/-! ### The host's own two records -/

/-- The same state with these entries still to come and these reads made: the two records of the host,
which no rule of the core reads. -/
def State.withHost (s : State) (xs : List Input) (rs : List (HostAddr × Byte)) : State :=
  { s with inputs := xs, reads := rs }

theorem State.withHost_self {s : State} {xs : List Input} (h : s.inputs = xs) :
    s.withHost xs s.reads = s := by
  subst h
  rfl

theorem accepted_withHost (i : Instr) (s : State) (xs : List Input) (rs : List (HostAddr × Byte)) :
    accepted i (s.withHost xs rs) = (accepted i s).withHost xs rs := by
  cases i <;> rfl

theorem CoreMove.inputs_eq {s t : State} (m : CoreMove s t) : t.inputs = s.inputs := by
  cases m <;> rfl

/-- No core step reads the host's records or writes them. -/
theorem CoreMove.withHost {s t : State} (m : CoreMove s t) (xs : List Input)
    (rs : List (HostAddr × Byte)) : CoreMove (s.withHost xs rs) (t.withHost xs rs) := by
  cases m with
  | rest h => exact .rest h
  | reject h hm => exact .reject (s := s.withHost xs rs) h hm
  | check h hm => exact .check (s := s.withHost xs rs) h hm
  | loopEnd h he => exact .loopEnd (s := s.withHost xs rs) h he
  | bitOne h he hb => exact .bitOne (s := s.withHost xs rs) h he hb
  | bitZero h he hb => exact .bitZero (s := s.withHost xs rs) h he hb
  | mul h hm => exact .mul (s := s.withHost xs rs) h hm
  | sqr h hm => exact .sqr (s := s.withHost xs rs) h hm
  | shr h => exact .shr (s := s.withHost xs rs) h
  | aEnd h hi => exact .aEnd (s := s.withHost xs rs) h hi
  | aMiss h i hi hb => exact .aMiss (s := s.withHost xs rs) h i hi hb
  | aHit h i hi hb => exact .aHit (s := s.withHost xs rs) h i hi hb
  | bEnd h hi => exact .bEnd (s := s.withHost xs rs) h hi
  | bIndex h i hi => exact .bIndex (s := s.withHost xs rs) h i hi
  | fin h => exact .fin (s := s.withHost xs rs) h

/-! ### One entry of a program -/

section
variable {s t : State} {rest : List Input} {rs : List (HostAddr × Byte)}

theorem step_withHost_store {a : HostAddr} {v : Byte} {i : Nat} (hst : s.st = .idle) (hi : i < 10)
    (ha : a.toNat = 0x10 + i) :
    step (s.withHost (.wr a v :: rest) rs) = .next ((s.storeByte i v).withHost rest rs) :=
  step_of_move (.stored (s := s.withHost (.wr a v :: rest) rs) rfl (State.busy_eq_false.mpr hst)
    (bufferIndex_of_lt hi ha))

theorem step_withHost_command (hst : s.st = .idle) (i : Instr) :
    step (s.withHost (commandWrite (encode i) :: rest) rs) =
      .next ((accepted i s).withHost rest rs) := by
  rw [← accepted_withHost]
  exact step_of_move (.command (s := s.withHost (commandWrite (encode i) :: rest) rs) rfl
    (State.busy_eq_false.mpr hst) (decode_encode i))

theorem step_withHost_core (h : coreStep s = .next t) :
    step (s.withHost (.core :: rest) rs) = .next (t.withHost rest rs) :=
  step_of_move (.turn rfl ((coreStep_move h).withHost rest rs))

theorem step_withHost_read (s : State) (a : HostAddr) (rest : List Input)
    (rs : List (HostAddr × Byte)) :
    step (s.withHost (.rd a :: rest) rs) =
      .next (s.withHost rest (rs ++ [(a, (s.withHost rest rs).portByte a)])) :=
  step_read rfl

theorem step_withHost_readRtag (hdone : s.done = true) :
    step (s.withHost (.rd addrRtag :: rest) rs) =
      .next (s.withHost rest (rs ++ [(addrRtag, s.rtag)])) := by
  rw [step_withHost_read, portByte_rtag (s := s.withHost rest rs) hdone]
  rfl

theorem step_withHost_readResult (hdone : s.done = true) :
    step (s.withHost (.rd addrResult :: rest) rs) =
      .next (s.withHost rest (rs ++ [(addrResult, s.result)])) := by
  rw [step_withHost_read, portByte_result (s := s.withHost rest rs) hdone]
  rfl

/-- A poll while busy: the core gets one turn, then the host polls again (log entry 11). -/
theorem step_withHost_wait_busy (hst : s.st ≠ .idle) :
    step (s.withHost (.wait :: rest) rs) =
      .next (s.withHost (.core :: .wait :: rest) (rs ++ [(addrStatus, s.statusByte)])) := by
  have hbusy : (s.withHost rest rs).busy = true := State.busy_eq_true.mpr hst
  rcases hostWait_cases (s.withHost rest rs) with ⟨_, h⟩ | ⟨hidle, _⟩
  · exact (step_wait rfl).trans (congrArg Host.Outcome.next h)
  · exact absurd (hbusy.symm.trans hidle) (by decide)

/-- A poll while idle ends the `WAIT` (30_encoding.md R99). -/
theorem step_withHost_wait_idle (hst : s.st = .idle) :
    step (s.withHost (.wait :: rest) rs) =
      .next (s.withHost rest (rs ++ [(addrStatus, s.statusByte)])) := by
  have hidle : (s.withHost rest rs).busy = false := State.busy_eq_false.mpr hst
  rcases hostWait_cases (s.withHost rest rs) with ⟨hbusy, _⟩ | ⟨_, h⟩
  · exact absurd (hbusy.symm.trans hidle) (by decide)
  · exact (step_wait rfl).trans (congrArg Host.Outcome.next h)

theorem step_withHost_answer_undone (hdone : s.done = false) :
    step (s.withHost (.answer :: rest) rs) =
      .next (s.withHost rest (rs ++ [(addrStatus, s.statusByte)])) := by
  rcases hostAnswer_cases (s.withHost rest rs) with ⟨hset, _⟩ | ⟨_, h⟩
  · exact absurd (hset.symm.trans hdone) (by decide)
  · exact (step_answer rfl).trans (congrArg Host.Outcome.next h)

theorem step_withHost_answer_done (hdone : s.done = true) :
    step (s.withHost (.answer :: rest) rs) =
      .next (s.withHost (.rd addrRtag :: .rd addrResult :: rest)
        (rs ++ [(addrStatus, s.statusByte)])) := by
  rcases hostAnswer_cases (s.withHost rest rs) with ⟨_, h⟩ | ⟨hclear, _⟩
  · exact (step_answer rfl).trans (congrArg Host.Outcome.next h)
  · exact absurd (hdone.symm.trans hclear) (by decide)

/-- The tail of `GET` with a result to read (30_encoding.md R99). -/
theorem runSteps_answer_done (hdone : s.done = true) :
    runSteps 3 (s.withHost (.answer :: rest) rs) =
      .next (s.withHost rest
        (rs ++ [(addrStatus, s.statusByte), (addrRtag, s.rtag), (addrResult, s.result)])) := by
  rw [runSteps_next (step_withHost_answer_done hdone),
    runSteps_next (step_withHost_readRtag hdone), runSteps_next (step_withHost_readResult hdone),
    List.append_assoc, List.append_assoc]
  rfl

end

/-- Settles O55: one poll of the idle core, then the tail of `GET` in its two forms. -/
theorem getReadsTheResponse : Obligations.GetReadsTheResponse := by
  unfold Obligations.GetReadsTheResponse
  intro s rest hinv hst hin
  have hpoll : step s =
      .next (s.withHost (.answer :: rest) (s.reads ++ [(addrStatus, s.statusByte)])) := by
    rw [← step_withHost_wait_idle hst]
    exact congrArg step (State.withHost_self hin).symm
  refine ⟨fun hdone => ⟨_, ?_, rfl⟩, fun hdone => ⟨_, ?_, rfl⟩⟩
  · rw [runSteps_next hpoll, runSteps_answer_done hdone, List.append_assoc,
      hinv.statusByte_of_done hdone]
    rfl
  · rw [runSteps_next hpoll, runSteps_next (step_withHost_answer_undone hdone), List.append_assoc]
    rfl

/-! ### Operands by consecutive buffer writes -/

/-- The state after the host has stored these bytes at consecutive indices, the first at `i`. -/
def State.storeBytes : Nat → List Byte → State → State
  | _, [], s => s
  | i, b :: bs, s => State.storeBytes (i + 1) bs (s.storeByte i b)

theorem coreByte_storeByte_same {s : State} (hwf : s.ibuf.wf = true) {i : Nat} (hi : i < 10)
    (v : Byte) : (s.storeByte i v).coreByte i = v := by
  have hwritten : (s.storeByte i v).written i = true := by simp [State.storeByte_written s i v hi]
  rw [State.coreByte, if_pos hwritten]
  exact Memory.read_write_same hwf

theorem coreByte_storeByte_other (s : State) {i j : Nat} (hi : i < 10) (hne : i ≠ j) (v : Byte) :
    (s.storeByte i v).coreByte j = s.coreByte j := by
  have hwritten : (s.storeByte i v).written j = s.written j := by
    simp [State.storeByte_written s i v hi, hne.symm]
  have hread : (s.storeByte i v).ibuf.read j = s.ibuf.read j := Memory.read_write_other hne
  rw [State.coreByte, State.coreByte, hwritten, hread]
  rfl

theorem coreByte_storeBytes_below :
    ∀ (bs : List Byte) {i j : Nat} (s : State), i + bs.length ≤ 10 → j < i →
      (s.storeBytes i bs).coreByte j = s.coreByte j
  | [], _, _, _, _, _ => rfl
  | b :: bs, i, j, s, hlen, hj => by
    rw [List.length_cons] at hlen
    exact (coreByte_storeBytes_below bs (s.storeByte i b) (by omega) (by omega)).trans
      (coreByte_storeByte_other s (by omega) (by omega) b)

/-- The core reads each stored byte at its index (30_encoding.md R99). -/
theorem coreByte_storeBytes :
    ∀ (bs : List Byte) {i : Nat} {s : State}, s.ibuf.wf = true → i + bs.length ≤ 10 →
      ∀ j (h : j < bs.length), (s.storeBytes i bs).coreByte (i + j) = bs[j]
  | b :: bs, i, s, hwf, hlen, 0, _ => by
    rw [List.length_cons] at hlen
    exact (coreByte_storeBytes_below bs _ (by omega) (by omega)).trans
      (coreByte_storeByte_same hwf (by omega) b)
  | b :: bs, i, s, hwf, hlen, j + 1, h => by
    rw [List.length_cons] at hlen
    rw [← Nat.add_assoc, Nat.add_right_comm]
    exact coreByte_storeBytes bs (s := s.storeByte i b) (Memory.write_wf hwf) (by omega) j
      (Nat.lt_of_succ_lt_succ h)

theorem storeBytes_st : ∀ (bs : List Byte) (i : Nat) (s : State), (s.storeBytes i bs).st = s.st
  | [], _, _ => rfl
  | b :: bs, i, s => storeBytes_st bs (i + 1) (s.storeByte i b)

theorem storeBytes_cfg : ∀ (bs : List Byte) (i : Nat) (s : State), (s.storeBytes i bs).cfg = s.cfg
  | [], _, _ => rfl
  | b :: bs, i, s => storeBytes_cfg bs (i + 1) (s.storeByte i b)

theorem runSteps_bufferWrites {rest : List Input} {rs : List (HostAddr × Byte)} :
    ∀ (bs : List Byte) {a : HostAddr} {i : Nat} {s : State}, s.st = .idle → a.toNat = 0x10 + i →
      i + bs.length ≤ 10 →
      runSteps bs.length (s.withHost (bufferWrites a bs ++ rest) rs) =
        .next ((s.storeBytes i bs).withHost rest rs)
  | [], _, _, _, _, _, _ => rfl
  | b :: bs, a, i, s, hst, ha, hlen => by
    rw [List.length_cons] at hlen
    have hnext : (a + 1).toNat = 0x10 + (i + 1) := by
      rw [BitVec.toNat_add, ha, show (1 : HostAddr).toNat = 1 from rfl]
      omega
    have hstore : step (s.withHost (bufferWrites a (b :: bs) ++ rest) rs) =
        .next ((s.storeByte i b).withHost (bufferWrites (a + 1) bs ++ rest) rs) :=
      step_withHost_store hst (by omega) ha
    exact (runSteps_next hstore).trans
      (runSteps_bufferWrites bs (s := s.storeByte i b) hst hnext (by omega))

/-- A statement with operands stores them and starts its command (30_encoding.md R99). -/
theorem runSteps_deliver {s : State} {bs : List Byte} (hst : s.st = .idle) (hlen : bs.length ≤ 10)
    (i : Instr) (rest : List Input) (rs : List (HostAddr × Byte)) :
    runSteps (bs.length + 1)
        (s.withHost (bufferWrites addrIbuf bs ++ commandWrite (encode i) :: rest) rs) =
      .next ((accepted i (s.storeBytes 0 bs)).withHost rest rs) := by
  rw [runSteps_add 1 (runSteps_bufferWrites bs (i := 0) hst rfl (by omega))]
  exact runSteps_next (step_withHost_command ((storeBytes_st bs 0 s).trans hst) i)

theorem State.withProgram_eq {s : State} (hin : s.inputs = []) (p : List Stmt) :
    s.withProgram p = s.withHost (expandProgram p) s.reads := by
  rw [State.withProgram, hin]
  rfl

theorem accepted_coreByte (i : Instr) (s : State) (j : Nat) :
    (accepted i s).coreByte j = s.coreByte j := by
  cases i <;> rfl

/-- The engine's operands are the first three bytes stored (30_encoding.md R93). -/
theorem bufferOperands_storeBytes {s : State} (hwf : s.ibuf.wf = true) (m e n : Byte) :
    bufferOperands (s.storeBytes 0 [m, e, n]) = { msg := m, ex := e, md := n } := by
  have hbyte := coreByte_storeBytes [m, e, n] (i := 0) hwf (by simp)
  rw [ExpOperands.mk.injEq]
  exact ⟨hbyte 0 (by simp), hbyte 1 (by simp), hbyte 2 (by simp)⟩

/-- Settles O54: `runSteps_deliver` for each statement; the accepted command finds the bytes stored
(`coreByte_storeBytes`). -/
theorem statementsDeliverTheirOperands : Obligations.StatementsDeliverTheirOperands := by
  unfold Obligations.StatementsDeliverTheirOperands
  intro s hst hin hwf
  refine ⟨fun m e n => ?_, fun bs hlen => ?_⟩
  · have hloaded := bufferOperands_storeBytes hwf m e n
    refine ⟨(accepted .expv (s.storeBytes 0 [m, e, n])).withHost [] s.reads, ?_, rfl,
      congrArg ExpOperands.msg hloaded, congrArg ExpOperands.ex hloaded,
      congrArg ExpOperands.md hloaded, rfl⟩
    rw [State.withProgram_eq hin]
    exact runSteps_deliver (bs := [m, e, n]) hst (by simp) .expv [] s.reads
  · have hbyte : ∀ (c : Instr) i (h : i < bs.length),
        ((accepted c (s.storeBytes 0 bs)).withHost [] s.reads).coreByte i = bs[i] := fun c i h => by
      rw [← coreByte_storeBytes bs (i := 0) hwf (by omega) i h, Nat.zero_add]
      exact accepted_coreByte c _ i
    have hrun := fun c => hlen ▸ runSteps_deliver hst hlen.le c [] s.reads
    rw [State.withProgram_eq hin, State.withProgram_eq hin]
    simp only [expandProgram, List.flatMap_cons, List.flatMap_nil, List.append_nil, Stmt.expand]
    exact ⟨⟨_, hrun .cmpe, rfl, rfl, hbyte .cmpe⟩, ⟨_, hrun .cmpu, rfl, rfl, hbyte .cmpu⟩⟩

/-! ### Waiting beside the run of the core alone -/

theorem runSteps_succ_eq_next {k : Nat} {s u : State} (h : runSteps (k + 1) s = .next u) :
    ∃ v, step s = .next v ∧ runSteps k v = .next u := by
  cases hs : step s with
  | next v => exact ⟨v, rfl, (runSteps_next hs).symm.trans h⟩
  | fault f => rw [runSteps_fault hs] at h; cases h
  | refused r => rw [runSteps_refused hs] at h; cases h

/-- Where the core alone comes to rest, a `WAIT` ends, with some more reads made (30_encoding.md R99). -/
theorem reaches_wait_end {rest : List Input} :
    ∀ (k : Nat) {s u : State} (rs : List (HostAddr × Byte)), s.inputs = [] →
      runSteps k s = .next u → u.st = .idle →
      ∃ l rs', runSteps l (s.withHost (.wait :: rest) rs) = .next (u.withHost rest rs') := by
  intro k s u rs hin hrun hend
  by_cases hst : s.st = .idle
  · obtain rfl : s = u := by simpa [runSteps_rest hin hst k] using hrun
    exact ⟨1, _, runSteps_next (step_withHost_wait_idle hst)⟩
  · cases k with
    | zero =>
      obtain rfl : s = u := by simpa [runSteps_zero] using hrun
      exact absurd hend hst
    | succ k =>
      obtain ⟨v, hstep, hrest⟩ := runSteps_succ_eq_next hrun
      have hcore : coreStep s = .next v := (step_alone hin).symm.trans hstep
      have hpoll : runSteps 2 (s.withHost (.wait :: rest) rs) =
          .next (v.withHost (.wait :: rest) (rs ++ [(addrStatus, s.statusByte)])) :=
        (runSteps_next (step_withHost_wait_busy hst)).trans (runSteps_next (step_withHost_core hcore))
      obtain ⟨l, rs', hl⟩ :=
        reaches_wait_end k _ ((coreStep_move hcore).inputs_eq.trans hin) hrest hend
      exact ⟨2 + l, rs', (runSteps_add l hpoll).trans hl⟩

/-! ### What a program reads -/

/-- The operation level does not read the host's records. -/
theorem report_withHost (s : State) (c : Byte) (xs : List Input) (rs : List (HostAddr × Byte)) :
    report (s.withHost xs rs) c = report s c := rfl

theorem shown_eq_done {u : State} {r tag v : Byte} {tr : List Event}
    (h : u.shown = { kind := .done, result := some r, rtag := some tag, status := v, trace := tr }) :
    u.done = true ∧ u.result = r ∧ u.rtag = tag ∧ u.statusByte = v := by
  cases hd : u.done <;> simp_all [State.shown]

/-- A program that stores operands, writes a command and makes a `GET` reads the outcome of the operation
level, when that is a result (40_invocation.md R130). -/
theorem reaches_response {s : State} {bs : List Byte} {i : Instr} {r tag : Byte} {tr : List Event}
    (hst : s.st = .idle) (hlen : bs.length ≤ 10)
    (hreport : report (s.storeBytes 0 bs) (encode i) =
      { kind := .done, result := some r, rtag := some tag, status := 0x02, trace := tr }) :
    ∃ k u rs, runSteps k (s.withHost (bufferWrites addrIbuf bs ++
        [commandWrite (encode i), .wait, .answer]) s.reads) = .next u ∧ u.inputs = [] ∧
      u.reads = rs ++ [(0x01, 0x02), (0x03, tag), (0x02, r)] := by
  have hdeliver := runSteps_deliver hst hlen i [.wait, .answer] s.reads
  obtain ⟨u, hinvocation, _, hidle, hshown⟩ :=
    endsWith_accepted i (s := (s.storeBytes 0 bs).withHost [] []) rfl
  rw [report_withHost, hreport] at hshown
  obtain ⟨hdone, hresult, hrtag, hstatus⟩ := shown_eq_done hshown
  rw [accepted_withHost] at hinvocation
  obtain ⟨l, rs, hwait⟩ := reaches_wait_end (rest := [.answer]) _ s.reads rfl hinvocation hidle
  have hanswer := runSteps_answer_done (rest := []) (rs := rs) hdone
  rw [hresult, hrtag, hstatus] at hanswer
  exact ⟨_, _, rs, (runSteps_add _ hdeliver).trans ((runSteps_add _ hwait).trans hanswer), rfl, rfl⟩

/-! ### The modular power -/

/-- The loop of `ModExp` computes the power by squaring, by induction on a bound on the bits of the
exponent (41_modexp.md R159). -/
theorem modExpLoop_eq (n : Nat) :
    ∀ (k res base e : Nat), e ≠ 0 → e < 2 ^ k → modExpLoop k res base e n = res * base ^ e % n
  | 0, _, _, e, he, hlt => by omega
  | k + 1, res, base, e, he, hlt => by
    have hpow : base ^ e = base ^ (e % 2) * (base * base) ^ (e / 2) := by
      rw [← pow_two, ← pow_mul, ← pow_add, Nat.mod_add_div]
    have hbit : (if e % 2 = 1 then res * base % n else res) ≡ res * base ^ (e % 2) [MOD n] := by
      rcases Nat.mod_two_eq_zero_or_one e with h | h
      · simpa [h] using Nat.ModEq.refl res
      · simpa [h] using Nat.mod_modEq (res * base) n
    rw [modExpLoop, if_neg he]
    by_cases hhalf : e / 2 = 0
    · obtain rfl : e = 1 := by omega
      cases k <;> simp [modExpLoop]
    · rw [modExpLoop_eq n k _ _ _ hhalf (by omega), hpow, ← mul_assoc]
      exact hbit.mul ((Nat.mod_modEq _ n).pow _)

/-- `ModExp` is the modular power, with 1 for exponent 0 (41_modexp.md R159, R161). -/
theorem modExp_toNat {m e n : Byte} (hn : n ≠ 0) :
    (modExp m e n).toNat = if e.toNat = 0 then 1 else m.toNat ^ e.toNat % n.toNat := by
  have hpos : 0 < n.toNat := Nat.pos_of_ne_zero fun h => hn (BitVec.eq_of_toNat_eq h)
  unfold modExp
  split
  · next he => simp [he, modExpLoop]
  · next he =>
    have hlt : m.toNat ^ e.toNat % n.toNat < 2 ^ 8 := (Nat.mod_lt _ hpos).trans n.isLt
    rw [modExpLoop_eq _ 8 1 _ _ he e.isLt, one_mul, BitVec.toNat_ofNat, Nat.mod_eq_of_lt hlt]

/-- Settles O58: the program reads the operation level's outcome (`reaches_response`), and that is the
modular power of the bytes stored (`modExp_toNat`). -/
theorem hostProgramReadsTheModularPower : Obligations.HostProgramReadsTheModularPower := by
  unfold Obligations.HostProgramReadsTheModularPower
  intro s m e n hinv hst hin hn
  obtain ⟨hwf, _⟩ := hinv.buffer
  have hreport : report (s.storeBytes 0 [m, e, n]) (encode .expv) =
      { kind := .done, result := some (modExp m e n), rtag := some s.cfg.tagExp, status := 0x02
        trace := expTrace e } := by
    simp only [report, decode_encode, bufferOperands_storeBytes hwf, storeBytes_cfg, expReport,
      if_neg hn]
  obtain ⟨k, u, rs, hrun, hinputs, hreads⟩ := reaches_response hst (by simp) hreport
  rw [State.withProgram_eq hin]
  exact ⟨k, u, _, rs, hrun, hinputs, hreads, modExp_toNat hn⟩

/-! ### The secret -/

/-- The Comparison Attempt is the first eight bytes stored (30_encoding.md R94). -/
theorem attempt_storeBytes {s : State} (hwf : s.ibuf.wf = true) {bs : List Byte}
    (hlen : bs.length = 10) : (s.storeBytes 0 bs).attempt.toList = bs.take 8 := by
  refine List.ext_getElem (by simp [hlen]) fun j hj _ => ?_
  have hlt : j < 8 := by simpa using hj
  have hbyte := coreByte_storeBytes bs (i := 0) hwf (by omega) j (by omega)
  rw [Nat.zero_add] at hbyte
  simpa [State.attempt] using hbyte

/-- Settles O59: the program reads the operation level's outcome (`reaches_response`), which compares the
bytes stored with the secret. -/
theorem hostProgramChecksTheSecret : Obligations.HostProgramChecksTheSecret := by
  unfold Obligations.HostProgramChecksTheSecret
  intro s bs hinv hst hin hlen
  obtain ⟨hwf, _⟩ := hinv.buffer
  have hreport : report (s.storeBytes 0 bs) (encode .cmpe) =
      cmpReport s.cfg (cmpA s.cfg.ref (s.storeBytes 0 bs).attempt)
        (cmpATrace s.cfg.ref (s.storeBytes 0 bs).attempt) := by
    simp only [report, decode_encode, storeBytes_cfg]
  obtain ⟨k, u, rs, hrun, hinputs, hreads⟩ := reaches_response hst hlen.le hreport
  rw [State.withProgram_eq hin]
  simp only [expandProgram, List.flatMap_cons, List.flatMap_nil, List.append_nil, Stmt.expand,
    List.append_assoc]
  refine ⟨k, u, _, rs, hrun, hinputs, hreads, ?_⟩
  rw [← attempt_storeBytes hwf hlen, Vector.toList_inj]
  unfold cmpA
  split
  · next heq => exact ⟨.inr rfl, fun _ => heq, fun _ => rfl⟩
  · next hne => exact ⟨.inl rfl, fun h => absurd h (by decide), fun heq => absurd heq hne⟩

end Sys2Proof.Machine
end

section
/-! PROOFS. The invariant (40_invocation.md R125, R126). Of a state in flight it says two things: what
every sequencer state asks alike (`State.Running`), which survives each working step, and what the current
one asks of the registers (`State.unitAt`), which is checked move by move. -/

namespace Sys2Proof.Machine

/-! ### The invariant of a busy and of an idle state -/

/-- What the invariant asks of an invocation in progress, whichever unit runs it: the window is open, no
outcome is shown, and the trace holds a rise and work only (40_invocation.md R125). -/
structure State.Running (s : State) : Prop where
  busy : s.st ≠ .idle
  trig : s.trig = true
  done : s.done = false
  err : s.err = false
  ecode : s.ecode = .none
  buffer : s.bufferOk
  trace : traceOpen s.trace = true

/-- What the invariant asks of the registers in each sequencer state (10_state.md R24, R26, R28, R30). -/
def State.unitAt (s : State) : SeqState → Prop
  | .idle => True
  | .expChk => s.opr = 0 ∨ s.opr = 1
  | .expHead | .expMul | .expSqr | .expShr => (s.opr = 0 ∨ s.opr = 1) ∧ s.mod ≠ 0
  | .cmpaLoop => s.opr = 2 ∧ s.idx.toNat ≤ 8 ∧ s.flag = flagCorrect
  | .cmpbLoop => s.opr = 3 ∧ s.idx.toNat ≤ 8
  | .fin => True

theorem State.unitAt_iff (s : State) :
    s.unitAt s.st ↔ s.oprOk ∧ s.modulusOk ∧ s.comparatorOk := by
  unfold State.oprOk State.modulusOk State.comparatorOk
  cases s.st <;> simp [State.unitAt]

section
variable {s : State}

theorem State.Inv.running (h : s.Inv) (hst : s.st ≠ .idle) : s.Running := by
  have hbusy := State.busy_eq_true.mpr hst
  obtain ⟨hdone, herr⟩ := h.no_outcome_of_busy hst
  have htrace := h.trace
  rw [State.traceOk, if_pos hbusy] at htrace
  exact ⟨hst, h.bracket.trans hbusy, hdone, herr, h.ecode_none herr, h.buffer, htrace⟩

theorem State.Inv.unit (h : s.Inv) : s.unitAt s.st := s.unitAt_iff.mpr ⟨h.opr, h.modulus, h.comparator⟩

/-- What the invariant says of a state whose sequencer state is known not to be `IDLE`. -/
theorem State.Inv.busyAt (h : s.Inv) {n : SeqState} (hst : s.st = n) (hn : n ≠ .idle := by decide) :
    s.Running ∧ s.unitAt n := by
  subst hst
  exact ⟨h.running hn, h.unit⟩

theorem State.Inv.of_running (h : s.Running) (hunit : s.unitAt s.st) : s.Inv := by
  have hbusy := State.busy_eq_true.mpr h.busy
  obtain ⟨hopr, hmod, hcmp⟩ := s.unitAt_iff.mp hunit
  exact {
    bracket := h.trig.trans hbusy.symm
    status := by simp [State.statusOk, h.done, h.err]
    ecode := by simp [State.ecodeOk, h.err, h.ecode]
    opr := hopr
    modulus := hmod
    comparator := hcmp
    buffer := h.buffer
    trace := by rw [State.traceOk, if_pos hbusy]; exact h.trace }

theorem State.Inv.trig_of_idle (h : s.Inv) (hst : s.st = .idle) : s.trig = false :=
  h.bracket.trans (State.busy_eq_false.mpr hst)

theorem State.Inv.traceClosed_of_idle (h : s.Inv) (hst : s.st = .idle) : traceClosed s.trace = true := by
  simpa [State.traceOk, State.busy_eq_false.mpr hst] using h.trace

/-- In `IDLE` the invariant asks nothing of the units' registers. -/
theorem State.Inv.of_idle (hst : s.st = .idle) (htrig : s.trig = false)
    (hstatus : (s.done && s.err) = false) (hecode : s.ecodeOk) (hbuffer : s.bufferOk)
    (htrace : traceClosed s.trace = true) : s.Inv := by
  have hbusy := State.busy_eq_false.mpr hst
  obtain ⟨hopr, hmod, hcmp⟩ := s.unitAt_iff.mp (by rw [hst]; trivial)
  exact {
    bracket := htrig.trans hbusy.symm
    status := by simpa [State.statusOk, hbusy] using hstatus
    ecode := hecode
    opr := hopr
    modulus := hmod
    comparator := hcmp
    buffer := hbuffer
    trace := by simpa [State.traceOk, hbusy] using htrace }

/-! ### The updates that keep it -/

theorem State.Running.goto (h : s.Running) {n : SeqState} (hn : n ≠ .idle) : (s.goto n).Running :=
  ⟨hn, h.trig, h.done, h.err, h.ecode, h.buffer, h.trace⟩

/-- A working step writes unit registers only and appends its event (40_invocation.md R125 (c)). -/
theorem State.Running.work {t : State} {e : Event} (h : s.Running) (htrace : t.trace = s.trace ++ [e])
    (he : e.isWork = true) (hst : t.st ≠ .idle) (hport : t.portRegs = s.portRegs)
    (hecode : t.ecode = s.ecode) (hibuf : t.ibuf = s.ibuf) : t.Running where
  busy := hst
  trig := (congrArg PortRegs.trig hport).trans h.trig
  done := (congrArg PortRegs.done hport).trans h.done
  err := (congrArg PortRegs.err hport).trans h.err
  ecode := hecode.trans h.ecode
  buffer := by rw [State.bufferOk, hibuf]; exact h.buffer
  trace := by rw [htrace]; exact traceOpen_snoc_work h.trace he

/-- The invariant does not speak of the host's two records. -/
theorem State.Inv.withHost (h : s.Inv) (xs : List Input) (rs : List (HostAddr × Byte)) :
    (s.withHost xs rs).Inv :=
  ⟨h.bracket, h.status, h.ecode, h.opr, h.modulus, h.comparator, h.buffer, h.trace⟩

theorem State.Inv.storeByte (h : s.Inv) {i : Nat} (hi : i < 10) (v : Byte) : (s.storeByte i v).Inv := by
  obtain ⟨hwf, hin⟩ := h.buffer
  exact ⟨h.bracket, h.status, h.ecode, h.opr, h.modulus, h.comparator,
    ⟨Memory.write_wf hwf, Memory.write_inBuffer hi hin⟩, h.trace⟩

/-- An illegal byte written while idle records its error and nothing else (60_exceptions.md R212). -/
theorem State.Inv.illegal (h : s.Inv) (hst : s.st = .idle) : (s.clearOutcome.raise .illcmd).Inv :=
  .of_idle hst (h.trig_of_idle hst) rfl rfl h.buffer (h.traceClosed_of_idle hst)

theorem State.Inv.accepted (h : s.Inv) (i : Instr) : (accepted i s).Inv := by
  have hrun : (Machine.accepted i s).Running := by
    cases i <;> exact ⟨nofun, rfl, rfl, rfl, rfl, h.buffer, rfl⟩
  refine .of_running hrun ?_
  cases i with
  | expf => exact .inl rfl
  | expv => exact .inr rfl
  | cmpe => exact ⟨rfl, Nat.zero_le 8, rfl⟩
  | cmpu => exact ⟨rfl, Nat.zero_le 8⟩

theorem State.Inv.afterRst (s : State) : s.afterRst.Inv :=
  .of_idle rfl rfl rfl rfl ⟨rfl, rfl⟩ rfl

theorem State.Inv.hostWait (h : s.Inv) : (hostWait s).Inv := by
  rcases hostWait_cases s with ⟨_, hw⟩ | ⟨_, hw⟩ <;> rw [hw] <;> exact h.withHost _ _

theorem State.Inv.hostAnswer (h : s.Inv) : (hostAnswer s).Inv := by
  rcases hostAnswer_cases s with ⟨_, hw⟩ | ⟨_, hw⟩ <;> rw [hw] <;> exact h.withHost _ _

/-! ### Every step -/

theorem idx_succ_toNat {x : BitVec 4} {i : Fin 8} (h : x.toNat = i.val) : (x + 1).toNat = i.val + 1 := by
  have hi := i.isLt
  rw [BitVec.toNat_add, h]
  exact Nat.mod_eq_of_lt (show i.val + 1 < 2 ^ 4 by omega)

/-- Each core step keeps the invariant: a working step stays inside the window and leaves the registers as
its next state asks, and the two ends of an invocation close the window. -/
theorem CoreMove.inv {t : State} (m : CoreMove s t) (h : s.Inv) : t.Inv := by
  cases m with
  | rest => exact h
  | reject hst =>
    obtain ⟨hrun, _⟩ := h.busyAt hst
    exact .of_idle rfl rfl rfl rfl hrun.buffer (traceClosed_snoc_fall hrun.trace)
  | check hst hm =>
    obtain ⟨hrun, hopr⟩ := h.busyAt hst
    exact .of_running (hrun.goto nofun) ⟨hopr, hm⟩
  | bitOne hst | bitZero hst =>
    obtain ⟨hrun, hengine⟩ := h.busyAt hst
    exact .of_running (hrun.goto nofun) hengine
  | mul hst | sqr hst | shr hst =>
    obtain ⟨hrun, hengine⟩ := h.busyAt hst
    exact .of_running (hrun.work rfl rfl nofun rfl rfl rfl) hengine
  | loopEnd hst | aEnd hst | bEnd hst =>
    obtain ⟨hrun, _⟩ := h.busyAt hst
    exact .of_running (hrun.goto nofun) trivial
  | aMiss hst =>
    obtain ⟨hrun, _⟩ := h.busyAt hst
    exact .of_running (hrun.work rfl rfl nofun rfl rfl rfl) trivial
  | aHit hst i hi =>
    obtain ⟨hrun, hopr, _, hflag⟩ := h.busyAt hst
    exact .of_running (hrun.work rfl rfl nofun rfl rfl rfl)
      ⟨hopr, (idx_succ_toNat hi).trans_le i.isLt, hflag⟩
  | bIndex hst i hi =>
    obtain ⟨hrun, hopr, _⟩ := h.busyAt hst
    exact .of_running (hrun.work rfl rfl nofun rfl rfl rfl) ⟨hopr, (idx_succ_toNat hi).trans_le i.isLt⟩
  | fin hst =>
    obtain ⟨hrun, _⟩ := h.busyAt hst
    have hecode : s.ecodeOk := h.ecode
    exact .of_idle rfl rfl hrun.err hecode hrun.buffer (traceClosed_snoc_fall hrun.trace)

end

/-- Settles O30: the core's moves by `CoreMove.inv`; of the host's, only a store, an acceptance, an illegal
byte and a reset event touch anything the invariant speaks of. -/
theorem everyStepKeepsTheInvariant : Obligations.EveryStepKeepsTheInvariant := by
  unfold Obligations.EveryStepKeepsTheInvariant
  intro s t h hstep
  have taken : ∀ rest, ({ s with inputs := rest } : State).Inv := fun rest => h.withHost rest s.reads
  cases step_move hstep with
  | alone _ m => exact m.inv h
  | turn _ m => exact m.inv (taken _)
  | ignored => exact taken _
  | stored _ _ hi =>
    obtain ⟨hlt, _⟩ := bufferIndex_eq_some hi
    exact (taken _).storeByte hlt _
  | command => exact (taken _).accepted _
  | illegal _ hb => exact (taken _).illegal (State.busy_eq_false.mp hb)
  | read => exact h.withHost _ _
  | reset => exact .afterRst _
  | poll => exact (taken _).hostWait
  | answer => exact (taken _).hostAnswer

/-! ### The events of the trace -/

/-- The state in which the core steps that append a work event (10_state.md R39). -/
def Event.comesFrom (s : State) : Event → Prop
  | .trigRise | .trigFall => False
  | .mul => s.st = .expMul
  | .sqr => s.st = .expSqr
  | .shr => s.st = .expShr
  | .cmp i => (s.st = .cmpaLoop ∨ s.st = .cmpbLoop) ∧ s.idx.toNat = i.val

theorem Event.comesFrom.busy {s : State} {e : Event} (h : e.comesFrom s) : s.st ≠ .idle := by
  intro hst
  cases e <;> simp [Event.comesFrom, hst] at h

/-- Everything a step can do to the trace: only acceptance and a reset event start it anew, and only the
core appends to it. -/
inductive TraceMove (s t : State) : Prop where
  | keep (h : t.trace = s.trace)
  | restart (h : t.trace = [.trigRise])
  | clear (h : t.trace = [])
  | fall (h : t.trace = s.trace ++ [.trigFall])
  | work {e : Event} (h : t.trace = s.trace ++ [e]) (hfrom : e.comesFrom s) (hst : t.st ≠ .idle)

/-- The two ends of an invocation append the fall, each working step its own event. -/
theorem CoreMove.traceMove {s t : State} {rest : List Input} (m : CoreMove { s with inputs := rest } t) :
    TraceMove s t := by
  cases m with
  | rest | check | loopEnd | bitOne | bitZero | aEnd | bEnd => exact .keep rfl
  | reject | fin => exact .fall rfl
  | mul hst | sqr hst | shr hst => exact .work rfl hst nofun
  | aMiss hst i hi | aHit hst i hi => exact .work rfl ⟨.inl hst, hi⟩ nofun
  | bIndex hst i hi => exact .work rfl ⟨.inr hst, hi⟩ nofun

theorem accepted_trace (i : Instr) (s : State) : (accepted i s).trace = [.trigRise] := by
  cases i <;> rfl

theorem hostWait_trace (s : State) : (hostWait s).trace = s.trace := by
  rcases hostWait_cases s with ⟨_, h⟩ | ⟨_, h⟩ <;> rw [h] <;> rfl

theorem hostAnswer_trace (s : State) : (hostAnswer s).trace = s.trace := by
  rcases hostAnswer_cases s with ⟨_, h⟩ | ⟨_, h⟩ <;> rw [h] <;> rfl

/-- If a step answers a next state, one of the moves of the trace was made. -/
theorem step_traceMove {s t : State} (hstep : step s = .next t) : TraceMove s t := by
  cases step_move hstep with
  | alone _ m => exact CoreMove.traceMove (rest := s.inputs) m
  | turn _ m => exact m.traceMove
  | ignored | stored | illegal | read => exact .keep rfl
  | command => exact .restart (accepted_trace _ _)
  | reset => exact .clear rfl
  | poll => exact .keep (hostWait_trace _)
  | answer => exact .keep (hostAnswer_trace _)

/-- Settles O38: of the moves of the trace only `TraceMove.work` appends a work event, between two busy
states, in which the invariant has `TRIG` at 1. -/
theorem workHappensOnlyInsideTheWindow : Obligations.WorkHappensOnlyInsideTheWindow := by
  unfold Obligations.WorkHappensOnlyInsideTheWindow
  intro s t e h hstep happend he
  cases step_traceMove hstep with
  | keep hkeep => simp [happend] at hkeep
  | restart hnew =>
    obtain rfl : e = .trigRise := by
      simpa using congrArg List.getLast? (happend.symm.trans hnew)
    cases he
  | clear hnew => simp [happend] at hnew
  | fall hfall =>
    obtain rfl : e = .trigFall := by simpa [happend] using hfall
    cases he
  | work hwork hfrom hst =>
    obtain rfl := List.singleton_inj.mp (List.append_cancel_left (happend.symm.trans hwork))
    have hrun := h.running hfrom.busy
    have hrun' := (everyStepKeepsTheInvariant s t h hstep).running hst
    refine ⟨hrun.trig, hrun'.trig, ?_, ?_, ?_, ?_⟩
    · rintro rfl; exact hfrom
    · rintro rfl; exact hfrom
    · rintro rfl; exact hfrom
    · rintro i rfl; exact hfrom

end Sys2Proof.Machine
end

section
/-! PROOFS. An invocation runs to completion (40_invocation.md R127, R128): from every state of the
invariant the core's step is enabled and brings the end nearer by the count `State.stepsLeft`, and no host
transaction made in between comes in its way. -/

namespace Sys2Proof.Machine

/-! ### How far the end is -/

/-- The number of core steps an exponentiation needs from the head of its loop, with exponent `e`. -/
def loopSteps (e : Byte) : Nat := 2 + 3 * bitlen e + popcount e

/-- A bound on the number of core steps the invocation in progress still needs (40_invocation.md R127). -/
def State.stepsLeft (s : State) : Nat :=
  match s.st with
  | .idle => 0
  | .expChk => 1 + loopSteps s.exp
  | .expHead => loopSteps s.exp
  | .expMul => 3 + loopSteps (shiftRightOne s.exp)
  | .expSqr => 2 + loopSteps (shiftRightOne s.exp)
  | .expShr => 1 + loopSteps (shiftRightOne s.exp)
  | .cmpaLoop | .cmpbLoop => 10 - s.idx.toNat
  | .fin => 1

theorem loopSteps_le (e : Byte) : loopSteps e ≤ 34 := by
  have hlen := bitlen_le e
  have hones := popcount_le e
  unfold loopSteps
  omega

theorem two_le_loopSteps (e : Byte) : 2 ≤ loopSteps e := by
  unfold loopSteps
  omega

theorem loopSteps_shiftRightOne {e : Byte} (he : e ≠ 0) :
    loopSteps e = loopSteps (shiftRightOne e) + 3 + (e.getLsbD 0).toNat := by
  unfold loopSteps
  rw [bitlen_shiftRightOne he, popcount_shiftRightOne e]
  omega

theorem loopSteps_shiftRightOne_le (e : Byte) : loopSteps (shiftRightOne e) ≤ 31 := by
  by_cases he : e = 0
  · subst he
    decide
  · have hle := loopSteps_le e
    rw [loopSteps_shiftRightOne he] at hle
    omega

theorem State.stepsLeft_le (s : State) : s.stepsLeft ≤ 35 := by
  have hexp := loopSteps_le s.exp
  have hshr := loopSteps_shiftRightOne_le s.exp
  unfold State.stepsLeft
  split <;> omega

/-- Every core step of an invocation brings its end nearer. -/
theorem CoreMove.stepsLeft_lt {s t : State} (m : CoreMove s t) (hbusy : s.st ≠ .idle) :
    t.stepsLeft < s.stepsLeft := by
  unfold State.stepsLeft
  cases m with
  | rest hst => exact absurd hst hbusy
  | check hst | mul hst | sqr hst | shr hst | fin hst => simp [hst]
  | reject hst => simp only [hst, State.goto_st]; omega
  | loopEnd hst =>
    have htwo := two_le_loopSteps s.exp
    simp only [hst, State.goto_st]
    omega
  | bitOne hst he hb | bitZero hst he hb =>
    simp only [hst, State.goto_st, State.goto_exp, loopSteps_shiftRightOne he, hb, Bool.toNat_true,
      Bool.toNat_false]
    omega
  | aEnd hst hi | bEnd hst hi => simp [hst, hi]
  | aMiss hst i hi =>
    have hlt := i.isLt
    simp only [hst, hi, State.goto_st]
    omega
  | aHit hst i hi | bIndex hst i hi =>
    have hlt := i.isLt
    simp only [hst, hi, State.goto_st, State.goto_idx, State.nextIndex_idx, State.accumulate_idx,
      State.emit_idx, idx_succ_toNat hi]
    omega

/-! ### The core alone -/

/-- From a state of the invariant the core's step is never stopped: the two guards of the model are out of
reach (41_modexp.md R153, 93_implementation_defined.md U7). -/
theorem State.Inv.exists_coreMove {s : State} (h : s.Inv) : ∃ t, CoreMove s t := by
  have hindex : s.idx.toNat ≤ 8 → s.idx = 8 ∨ ∃ i : Fin 8, s.idx.toNat = i.val := fun hle =>
    hle.eq_or_lt.imp (fun h8 => BitVec.eq_of_toNat_eq h8) fun hlt => ⟨⟨_, hlt⟩, rfl⟩
  cases hst : s.st with
  | idle => exact ⟨_, .rest hst⟩
  | expChk =>
    by_cases hm : s.mod = 0
    · exact ⟨_, .reject hst hm⟩
    · exact ⟨_, .check hst hm⟩
  | expHead =>
    by_cases he : s.exp = 0
    · exact ⟨_, .loopEnd hst he⟩
    · cases hb : s.exp.getLsbD 0 with
      | true => exact ⟨_, .bitOne hst he hb⟩
      | false => exact ⟨_, .bitZero hst he hb⟩
  | expMul =>
    obtain ⟨_, _, hm⟩ := h.busyAt hst
    exact ⟨_, .mul hst hm⟩
  | expSqr =>
    obtain ⟨_, _, hm⟩ := h.busyAt hst
    exact ⟨_, .sqr hst hm⟩
  | expShr => exact ⟨_, .shr hst⟩
  | cmpaLoop =>
    obtain ⟨_, _, hle, _⟩ := h.busyAt hst
    rcases hindex hle with hi | ⟨i, hi⟩
    · exact ⟨_, .aEnd hst hi⟩
    · by_cases hb : s.coreByte i.val = s.refByte i
      · exact ⟨_, .aHit hst i hi hb⟩
      · exact ⟨_, .aMiss hst i hi hb⟩
  | cmpbLoop =>
    obtain ⟨_, _, hle⟩ := h.busyAt hst
    rcases hindex hle with hi | ⟨i, hi⟩
    · exact ⟨_, .bEnd hst hi⟩
    · exact ⟨_, .bIndex hst i hi⟩
  | fin => exact ⟨_, .fin hst⟩

/-- The core alone comes to rest within any bound on its steps left, by induction on the bound. -/
theorem State.Inv.reaches_idle :
    ∀ {n : Nat} {s : State}, s.Inv → s.inputs = [] → s.stepsLeft ≤ n →
      ∃ k u, k ≤ n ∧ runSteps k s = .next u ∧ u.st = .idle
  | n, s, h, hin, hle => by
    by_cases hst : s.st = .idle
    · exact ⟨0, s, Nat.zero_le n, rfl, hst⟩
    · obtain ⟨t, m⟩ := h.exists_coreMove
      have hlt := m.stepsLeft_lt hst
      cases n with
      | zero => omega
      | succ n =>
        obtain ⟨k, u, hk, hrun, hend⟩ :=
          (m.inv h).reaches_idle (m.inputs_eq.trans hin) (show t.stepsLeft ≤ n by omega)
        exact ⟨k + 1, u, by omega, (runSteps_core hin (coreStep_of_move m)).trans hrun, hend⟩

/-- Settles O52: no state has more than 35 steps left (`State.stepsLeft_le`). -/
theorem everyInvocationEndsWithin35Steps : Obligations.EveryInvocationEndsWithin35Steps := by
  unfold Obligations.EveryInvocationEndsWithin35Steps
  exact fun s h hin => h.reaches_idle hin s.stepsLeft_le

/-! ### The core among host transactions -/

/-- A write that comes while busy is lost, and leaves the core where it was (20_memory.md R68). -/
theorem step_withHost_write_busy {s : State} (hst : s.st ≠ .idle) (a : HostAddr) (v : Byte)
    (rest : List Input) (rs : List (HostAddr × Byte)) :
    step (s.withHost (.wr a v :: rest) rs) = .next (s.withHost rest rs) :=
  step_of_move (.ignored (s := s.withHost (.wr a v :: rest) rs) rfl (.inl (State.busy_eq_true.mpr hst)))

/-- Beside host writes and reads an invocation goes where the core alone goes, while that is busy; by
induction on the entries. -/
theorem runSteps_beside_core :
    ∀ (xs : List Input) {s : State} (rs : List (HostAddr × Byte)), s.inputs = [] →
      (∀ x ∈ xs, x = .core ∨ (∃ a v, x = .wr a v) ∨ ∃ a, x = .rd a) →
      (∀ j ≤ xs.count .core, ∃ v, runSteps j s = .next v ∧ v.st ≠ .idle) →
      ∃ v rs', runSteps xs.length (s.withHost xs rs) = .next (v.withHost [] rs') ∧
        runSteps (xs.count .core) s = .next v
  | [], s, rs, _, _, _ => ⟨s, rs, rfl, rfl⟩
  | x :: xs, s, rs, hin, hxs, hbusy => by
    obtain ⟨hx, hrest⟩ := List.forall_mem_cons.mp hxs
    rcases hx with rfl | ⟨a, v, rfl⟩ | ⟨a, rfl⟩
    · rw [List.count_cons_self] at hbusy ⊢
      obtain ⟨t, hstep, _⟩ := hbusy 1 (Nat.le_add_left 1 _)
      have hcore : coreStep s = .next t := by
        obtain ⟨_, hs, ht⟩ := runSteps_succ_eq_next hstep
        cases ht
        exact (step_alone hin).symm.trans hs
      have hnext : ∀ j, runSteps (j + 1) s = runSteps j t := fun j => runSteps_core hin hcore
      obtain ⟨v, rs', hrun, hend⟩ :=
        runSteps_beside_core xs rs ((coreStep_move hcore).inputs_eq.trans hin) hrest fun j hj =>
          hnext j ▸ hbusy (j + 1) (Nat.succ_le_succ hj)
      exact ⟨v, rs', (runSteps_next (step_withHost_core hcore)).trans hrun, (hnext _).trans hend⟩
    · rw [List.count_cons_of_ne (show Input.wr a v ≠ .core from nofun)] at hbusy ⊢
      have hst : s.st ≠ .idle := by
        obtain ⟨_, hzero, hst⟩ := hbusy 0 (Nat.zero_le _)
        cases hzero
        exact hst
      obtain ⟨u, rs', hrun, hend⟩ := runSteps_beside_core xs rs hin hrest hbusy
      exact ⟨u, rs', (runSteps_next (step_withHost_write_busy hst a v xs rs)).trans hrun, hend⟩
    · rw [List.count_cons_of_ne (show Input.rd a ≠ .core from nofun)] at hbusy ⊢
      obtain ⟨u, rs', hrun, hend⟩ := runSteps_beside_core xs _ hin hrest hbusy
      exact ⟨u, rs', (runSteps_next (step_withHost_read s a xs rs)).trans hrun, hend⟩

/-- Settles O53: `runSteps_beside_core`; what is left of the two runs differs in the host's records
only. -/
theorem hostCannotDisturbAnInvocation : Obligations.HostCannotDisturbAnInvocation := by
  unfold Obligations.HostCannotDisturbAnInvocation
  intro xs s hin hxs hbusy
  obtain ⟨v, rs, hrun, hend⟩ := runSteps_beside_core xs s.reads rfl hxs hbusy
  have hself : ({ s with inputs := [] } : State).withHost xs s.reads = s := by
    subst hin
    rfl
  rw [hself] at hrun
  exact ⟨v.withHost [] rs, v, hrun, hend, rfl⟩

end Sys2Proof.Machine
end

section
/-! PROOFS. What one transaction of an invocation does (40_invocation.md R121 to R124): the two kinds of host
write, the host read, and the `FIN` step. -/

namespace Sys2Proof.Machine

/-! ### Writes to `CMD` -/

/-- Settles O9: `exec_busy`, in any sequencer state but `IDLE`. -/
theorem busyCommandsAreTurnedAway : Obligations.BusyCommandsAreTurnedAway := by
  unfold Obligations.BusyCommandsAreTurnedAway
  exact fun i _ hst => exec_busy (State.busy_eq_true.mpr hst) i

/-- Settles O4: the entry is a write to `CMD`, and a byte that decodes runs its command, busy or not
(`writeCommand_of_decode`). -/
theorem stepRunsTheDecodedCommand : Obligations.StepRunsTheDecodedCommand := by
  unfold Obligations.StepRunsTheDecodedCommand
  intro s c i rest hin hd
  calc step s = hostWrite { s with inputs := rest } addrCmd c := step_write hin
    _ = writeCommand { s with inputs := rest } c := hostWrite_cmd _ c
    _ = exec i { s with inputs := rest } := writeCommand_of_decode hd _

/-- After acceptance the host reads `BUSY` alone (40_invocation.md R122). -/
theorem accepted_statusByte (i : Instr) (s : State) : (accepted i s).statusByte = 0x01 := by
  cases i <;> exact State.statusByte_of (b := true) (d := false) (e := false) (c := .none) rfl rfl rfl rfl

/-- Settles O6: the write is lost, illegal or one of the four acceptances, and the state each of these leads
to is written out in its definition. -/
theorem commandWriteFollowsTheAcceptanceRule : Obligations.CommandWriteFollowsTheAcceptanceRule := by
  unfold Obligations.CommandWriteFollowsTheAcceptanceRule
  intro s c rest hin
  have accepts : ∀ i, s.st = .idle → c = encode i →
      ∃ t, step s = .next t ∧ t.statusByte = 0x01 ∧ t = accepted i { s with inputs := rest } := by
    rintro i hst rfl
    exact ⟨_, step_of_move (.command hin (State.busy_eq_false.mpr hst) (decode_encode i)),
      accepted_statusByte i _, rfl⟩
  refine ⟨fun hst => step_of_move (.ignored hin (.inl (State.busy_eq_true.mpr hst))),
    fun hst hzero => ?_, accepts .expf, accepts .expv, accepts .cmpe, accepts .cmpu⟩
  have hd : decode c = .error .zeroFieldSet := if_pos hzero
  exact step_of_move (.illegal hin (State.busy_eq_false.mpr hst) hd)

/-! ### Writes to the buffer -/

/-- Settles O13: a store is read back at its own index and changes no other (`coreByte_storeByte_same`,
`coreByte_storeByte_other`); while busy the write is lost. -/
theorem bufferWriteStoresOneByte : Obligations.BufferWriteStoresOneByte := by
  unfold Obligations.BufferWriteStoresOneByte
  intro s i a v rest hi ha hwf hin
  refine ⟨fun hst => ?_, fun hst => step_of_move (.ignored hin (.inl (State.busy_eq_true.mpr hst)))⟩
  have hwritten := ({ s with inputs := rest } : State).storeByte_written i v hi
  refine ⟨_, step_of_move (.stored hin (State.busy_eq_false.mpr hst) (bufferIndex_of_lt hi ha)),
    Memory.read_write_same hwf, ?_, coreByte_storeByte_same hwf hi v, fun j hj => ⟨?_, ?_, ?_⟩, rfl⟩
  · simp [hwritten]
  · exact Memory.read_write_other hj.symm
  · rw [hwritten]
    simp [hj, State.written]
  · exact coreByte_storeByte_other _ hi hj.symm v

/-! ### Reads -/

/-- Settles O16: the byte is that of the port at its address. -/
theorem hostReadReturnsTheMappedByte : Obligations.HostReadReturnsTheMappedByte := by
  unfold Obligations.HostReadReturnsTheMappedByte
  intro s a rest hin
  refine ⟨({ s with inputs := rest } : State).portByte a, step_read hin, ?_, ?_, ?_, portByte_eq_zero _⟩
  · rintro rfl
    exact portByte_status _
  · rintro rfl hdone
    exact portByte_result (s := { s with inputs := rest }) hdone
  · rintro rfl hdone
    exact portByte_rtag (s := { s with inputs := rest }) hdone

/-! ### The end of an invocation -/

theorem flagByte_toNat (f : BitVec 1) : (flagByte f).toNat = f.toNat :=
  BitVec.toNat_setWidth_of_le (by decide)

/-- Settles O28: the `FIN` step publishes what the latched code selects (`final_of_engine`, `final_of_cmpe`,
`final_of_cmpu`). -/
theorem finStepPublishesTheResult : Obligations.FinStepPublishesTheResult := by
  unfold Obligations.FinStepPublishesTheResult
  intro s hst
  refine ⟨_, coreStep_fin hst, fun hopr => ?_, fun hopr => ?_, fun hopr => final_of_cmpu hopr,
    fun hcfg => ?_, rfl⟩
  · exact final_of_engine (by rcases hopr with h | h <;> rw [h] <;> rfl)
  · obtain ⟨hresult, htag⟩ := final_of_cmpe hopr
    exact ⟨(congrArg BitVec.toNat hresult).trans (flagByte_toNat s.flag), htag⟩
  · rw [hcfg]
    exact ⟨rfl, rfl⟩

end Sys2Proof.Machine
end

section
/-! PROOFS. The exponentiation engine (41_modexp.md). Its acceptance and each of its core steps are read off
the equations of Laws/Steps.lean. Of a whole exponentiation the operation level's outcome is known
(`endsWith_accepted`); added here is what that outcome does not show: `TRIG` and the number of steps still
to come (`State.OnEngine`), the sequence of `ST` values (`statesOver_expHead`), that the trace determines
the exponent (`expTrace_injective`), and that `EXPF` and `EXPV` run alike (`CoreMove.withOpr`). -/

namespace Sys2Proof.Machine

/-! ### The machine never stops -/

/-- Every write of the host's is one of the moves, whatever its address and byte. -/
theorem exists_write_move {s : State} {a : HostAddr} {v : Byte} {rest : List Input}
    (hin : s.inputs = .wr a v :: rest) : ∃ t, Move s t := by
  cases hb : s.busy with
  | true => exact ⟨_, .ignored hin (.inl hb)⟩
  | false =>
    by_cases ha : a = addrCmd
    · subst ha
      cases hd : decode v with
      | ok i => exact ⟨_, .command hin hb hd⟩
      | error r => exact ⟨_, .illegal hin hb hd⟩
    · cases hi : bufferIndex a with
      | none => exact ⟨_, .ignored hin (.inr ⟨ha, hi⟩)⟩
      | some i => exact ⟨_, .stored hin hb hi⟩

/-- From a state of the invariant some move is open, whatever the next entry: the host's entries always
have one, and a turn of the core by `State.Inv.exists_coreMove`. -/
theorem State.Inv.exists_move {s : State} (h : s.Inv) : ∃ t, Move s t := by
  cases hin : s.inputs with
  | nil =>
    obtain ⟨t, m⟩ := h.exists_coreMove
    exact ⟨t, .alone hin m⟩
  | cons x rest =>
    cases x with
    | wr a v => exact exists_write_move hin
    | rd a => exact ⟨_, .read hin⟩
    | rst => exact ⟨_, .reset hin⟩
    | core =>
      obtain ⟨t, m⟩ := (h.withHost rest s.reads).exists_coreMove
      exact ⟨t, .turn hin m⟩
    | wait => exact ⟨_, .poll hin⟩
    | answer => exact ⟨_, .answer hin⟩

/-- Settles O31: some move is open (`State.Inv.exists_move`), and it is what the step does
(`step_of_move`). -/
theorem machineNeverStops : Obligations.MachineNeverStops := by
  unfold Obligations.MachineNeverStops
  intro s h
  obtain ⟨t, m⟩ := h.exists_move
  exact ⟨t, step_of_move m⟩

/-! ### Acceptance -/

/-- Settles O7: the state an accepted engine command leads to, written out. -/
theorem engineCommandsLoadTheirOperands : Obligations.EngineCommandsLoadTheirOperands := by
  unfold Obligations.EngineCommandsLoadTheirOperands
  intro s hst
  have hidle := State.busy_eq_false.mpr hst
  exact ⟨exec_idle hidle .expf, exec_idle hidle .expv⟩

/-- A command answers the state as it is while busy, and its acceptance while idle. -/
theorem exec_eq_next {i : Instr} {s t : State} (h : exec i s = .next t) : t = s ∨ t = accepted i s := by
  cases hb : s.busy with
  | true => exact .inl (Host.Outcome.next.inj (h.symm.trans (exec_busy hb i)))
  | false => exact .inr (Host.Outcome.next.inj (h.symm.trans (exec_idle hb i)))

/-- Settles O10: a command turned away changes nothing, and each acceptance writes its own unit's registers
only. -/
theorem acceptanceFrame : Obligations.AcceptanceFrame := by
  unfold Obligations.AcceptanceFrame
  intro i s t hexec
  rcases exec_eq_next hexec with rfl | rfl
  · simp
  · refine ⟨fun a => ⟨congrArg (Memory.read · a) (accepted_ibuf i s), accepted_coreByte i s a⟩, ?_⟩
    cases i <;> simp [accepted]

/-! ### The core steps of the engine -/

/-- Settles O21: the two equations of the check step. -/
theorem checkStepRejectsZeroModulus : Obligations.CheckStepRejectsZeroModulus := by
  unfold Obligations.CheckStepRejectsZeroModulus
  exact fun s hst => ⟨coreStep_expChk_zero hst, coreStep_expChk_pos hst⟩

/-- Settles O22: the three equations of the head step, with the bit test as a parity (`bitZero_eq`). -/
theorem headStepTestsExponentAndBit : Obligations.HeadStepTestsExponentAndBit := by
  unfold Obligations.HeadStepTestsExponentAndBit
  intro s hst
  have hne : s.exp.toNat ≠ 0 → s.exp ≠ 0 := fun h he => h (congrArg BitVec.toNat he)
  refine ⟨fun hzero => coreStep_expHead_end hst (BitVec.eq_of_toNat_eq hzero),
    fun hpos hodd => coreStep_expHead_one hst (hne hpos) ?_,
    fun hpos heven => coreStep_expHead_zero hst (hne hpos) ?_⟩
  · rw [bitZero_eq, hodd]
    rfl
  · rw [bitZero_eq, heven]
    rfl

/-- 255 * 255 is the greatest product of two bytes (41_modexp.md R158 (a)). -/
theorem product_toNat_le (a b : Byte) : (product a b).toNat ≤ 65025 := by
  have ha := a.isLt
  have hb := b.isLt
  rw [product_toNat]
  exact Nat.mul_le_mul (show a.toNat ≤ 255 by omega) (show b.toNat ≤ 255 by omega)

/-- A remainder is less than its modulus (41_modexp.md R158 (b)). -/
theorem remainder_toNat_lt (p : Wide) {n : Byte} (hn : n ≠ 0) : (remainder p n).toNat < n.toNat := by
  rw [remainder_toNat p hn]
  exact Nat.mod_lt _ (Nat.pos_of_ne_zero fun h => hn (BitVec.eq_of_toNat_eq h))

/-- The remainder of a product, as exact numbers (41_modexp.md R155, R156). -/
theorem remainder_product_toNat (a b : Byte) {n : Byte} (hn : n ≠ 0) :
    (remainder (product a b) n).toNat = a.toNat * b.toNat % n.toNat := by
  rw [remainder_toNat _ hn, product_toNat]

/-- Settles O23: the equation of the multiply step, with the exact product and remainder. -/
theorem multiplyStepIsExact : Obligations.MultiplyStepIsExact := by
  unfold Obligations.MultiplyStepIsExact
  exact fun s hst hm => ⟨_, coreStep_expMul hst hm, product_toNat _ _, product_toNat_le _ _,
    remainder_product_toNat _ _ hm, remainder_toNat_lt _ hm, rfl⟩

/-- Settles O24: the equation of the square step, with the exact square and remainder. -/
theorem squareStepIsExact : Obligations.SquareStepIsExact := by
  unfold Obligations.SquareStepIsExact
  exact fun s hst hm => ⟨_, coreStep_expSqr hst hm, product_toNat _ _, product_toNat_le _ _,
    remainder_product_toNat _ _ hm, remainder_toNat_lt _ hm, rfl⟩

/-- Settles O25: the equation of the shift step; above bit 7 a byte has no bit to move down. -/
theorem shiftStepHalvesTheExponent : Obligations.ShiftStepHalvesTheExponent := by
  unfold Obligations.ShiftStepHalvesTheExponent
  intro s hst
  have hbit := shiftRightOne_getLsbD s.exp
  exact ⟨_, coreStep_expShr hst, shiftRightOne_toNat s.exp, fun i _ => hbit i,
    (hbit 7).trans (s.exp.getLsbD_of_ge 8 (Nat.le_refl 8)), rfl⟩

/-! ### The window of an exponentiation -/

/-- Every part of a run that ends in a next state does so too. -/
theorem exists_runSteps_of_add :
    ∀ {k : Nat} (l : Nat) {s u : State}, runSteps (k + l) s = .next u → ∃ v, runSteps k s = .next v
  | 0, _, s, _, _ => ⟨s, rfl⟩
  | k + 1, l, s, u, h => by
    rw [Nat.add_right_comm] at h
    obtain ⟨t, hstep, hrest⟩ := runSteps_succ_eq_next h
    obtain ⟨v, hv⟩ := exists_runSteps_of_add l hrest
    exact ⟨v, (runSteps_next hstep).trans hv⟩

/-- A core run takes one core step at a time. -/
theorem runSteps_core_succ {k : Nat} {s u : State} (hin : s.inputs = [])
    (h : runSteps (k + 1) s = .next u) : ∃ t, CoreMove s t ∧ runSteps k t = .next u := by
  obtain ⟨t, hstep, hrest⟩ := runSteps_succ_eq_next h
  exact ⟨t, coreStep_move ((step_alone hin).symm.trans hstep), hrest⟩

/-- The core alone, on an exponentiation whose modulus passes the check, or at rest after it: `TRIG` is
asserted exactly while busy (40_invocation.md R125 (a)). -/
structure State.OnEngine (s : State) : Prop where
  alone : s.inputs = []
  bracket : s.bracketOk
  notA : s.st ≠ .cmpaLoop
  notB : s.st ≠ .cmpbLoop
  modulus : s.mod ≠ 0

theorem State.OnEngine.trig {s : State} (h : s.OnEngine) (hst : s.st ≠ .idle) : s.trig = true :=
  h.bracket.trans (State.busy_eq_true.mpr hst)

theorem CoreMove.onEngine {s t : State} (m : CoreMove s t) (h : s.OnEngine) : t.OnEngine := by
  cases m with
  | rest => exact h
  | reject _ hm => exact absurd hm h.modulus
  | check hst | loopEnd hst | bitOne hst | bitZero hst | mul hst | sqr hst | shr hst =>
    exact ⟨h.alone, h.trig (by simp [hst]), nofun, nofun, h.modulus⟩
  | aEnd hst | aMiss hst | aHit hst => exact absurd hst h.notA
  | bEnd hst | bIndex hst => exact absurd hst h.notB
  | fin => exact ⟨h.alone, rfl, nofun, nofun, h.modulus⟩

/-- On the engine no core step brings the end nearer by more than one (40_invocation.md R127). -/
theorem CoreMove.stepsLeft_le_succ {s t : State} (m : CoreMove s t) (h : s.OnEngine) :
    s.stepsLeft ≤ t.stepsLeft + 1 := by
  unfold State.stepsLeft
  cases m with
  | rest => exact Nat.le_succ _
  | reject _ hm => exact absurd hm h.modulus
  | check hst | mul hst | sqr hst | shr hst | fin hst =>
    simp only [hst, State.goto_st, State.goto_exp, State.emit_exp, State.multiply_exp,
      State.square_exp, State.shiftExp_exp]
    omega
  | loopEnd hst he =>
    simp only [hst, he, State.goto_st]
    decide
  | bitOne hst he hb | bitZero hst he hb =>
    simp only [hst, State.goto_st, State.goto_exp, loopSteps_shiftRightOne he, hb, Bool.toNat_true,
      Bool.toNat_false]
    omega
  | aEnd hst | aMiss hst | aHit hst => exact absurd hst h.notA
  | bEnd hst | bIndex hst => exact absurd hst h.notB

/-- Along an exponentiation `k` core steps bring the end nearer by `k` at most. -/
theorem State.OnEngine.run :
    ∀ {k : Nat} {s v : State}, s.OnEngine → runSteps k s = .next v →
      v.OnEngine ∧ s.stepsLeft ≤ v.stepsLeft + k
  | 0, s, v, h, hrun => by
    cases hrun
    exact ⟨h, Nat.le_refl _⟩
  | k + 1, s, v, h, hrun => by
    obtain ⟨t, m, hrest⟩ := runSteps_core_succ h.alone hrun
    obtain ⟨hv, hle⟩ := (m.onEngine h).run hrest
    have hone := m.stepsLeft_le_succ h
    exact ⟨hv, by omega⟩

/-- `TRIG` is down again where an exponentiation has ended. -/
theorem State.OnEngine.trig_of_end {k : Nat} {s u : State} (h : s.OnEngine)
    (hrun : runSteps k s = .next u) (hend : u.st = .idle) : u.trig = false := by
  obtain ⟨hu, _⟩ := h.run hrun
  exact hu.bracket.trans (State.busy_eq_false.mpr hend)

/-- `TRIG` is up before each core step of an exponentiation (40_invocation.md R125 (a)). -/
theorem State.OnEngine.trig_before_end {k n : Nat} {s u : State} (h : s.OnEngine)
    (hrun : runSteps n s = .next u) (hn : n ≤ s.stepsLeft) (hk : k < n) :
    ∃ v, runSteps k s = .next v ∧ v.trig = true := by
  rw [← Nat.add_sub_cancel' hk.le] at hrun
  obtain ⟨v, hv⟩ := exists_runSteps_of_add _ hrun
  obtain ⟨hengine, hle⟩ := h.run hv
  refine ⟨v, hv, hengine.trig fun hst => ?_⟩
  have hzero : v.stepsLeft = 0 := by simp [State.stepsLeft, hst]
  omega

/-! ### EXPV as a whole -/

theorem expReport_of_modulus {o : ExpOperands} (hm : o.md ≠ 0) (cfg : Config) :
    expReport cfg o =
      { kind := .done, result := some (modExp o.msg o.ex o.md), rtag := some cfg.tagExp
        status := 0x02, trace := expTrace o.ex } :=
  if_neg hm

theorem report_expf (s : State) : report s (encode .expf) = expReport s.cfg (fixedOperands s) := rfl

theorem report_expv (s : State) : report s (encode .expv) = expReport s.cfg (bufferOperands s) := rfl

theorem invocationSteps_expf {s : State} (hm : s.cfg.fmod ≠ 0) :
    invocationSteps s (encode .expf) = expSteps s.cfg.fexp :=
  if_neg hm

theorem invocationSteps_expv {s : State} (hm : s.coreByte 2 ≠ 0) :
    invocationSteps s (encode .expv) = expSteps (s.coreByte 1) :=
  if_neg hm

theorem onEngine_expf {s : State} (hin : s.inputs = []) (hm : s.cfg.fmod ≠ 0) :
    (accepted .expf s).OnEngine :=
  ⟨hin, rfl, nofun, nofun, hm⟩

theorem onEngine_expv {s : State} (hin : s.inputs = []) (hm : s.coreByte 2 ≠ 0) :
    (accepted .expv s).OnEngine :=
  ⟨hin, rfl, nofun, nofun, hm⟩

theorem expSteps_le_stepsLeft (s : State) : expSteps (s.coreByte 1) ≤ (accepted .expv s).stepsLeft := by
  show expSteps (s.coreByte 1) ≤ 1 + loopSteps (s.coreByte 1)
  unfold expSteps loopSteps
  omega

/-- Settles O41: the operation level's outcome (`endsWith_accepted`) is the modular power
(`modExp_toNat`), and `TRIG` is up exactly until then (`State.OnEngine`). -/
theorem variableExponentiationComputesThePower : Obligations.VariableExponentiationComputesThePower := by
  unfold Obligations.VariableExponentiationComputesThePower
  rintro s m e n hst hin rfl rfl rfl hn
  obtain ⟨u, hrun, _, hend, hshown⟩ := endsWith_accepted .expv hin
  rw [invocationSteps_expv hn] at hrun
  rw [report_expv, expReport_of_modulus hn] at hshown
  obtain ⟨_, hresult, hrtag, hstatus⟩ := shown_eq_done hshown
  have hengine := onEngine_expv hin hn
  exact ⟨accepted .expv s, u, exec_idle (State.busy_eq_false.mpr hst) .expv, hrun, hend,
    hengine.trig_of_end hrun hend, hstatus, hrtag, hresult ▸ modExp_toNat hn,
    congrArg Report.trace hshown,
    fun k hk => hengine.trig_before_end hrun (expSteps_le_stepsLeft s) hk⟩

/-! ### The trace determines the exponent -/

/-- Induction along the right shifts of an exponent, as the engine works it off. -/
theorem exponent_induction {P : Byte → Prop} (zero : P 0)
    (shift : ∀ e, e ≠ 0 → P (shiftRightOne e) → P e) (e : Byte) : P e := by
  by_cases he : e = 0
  · exact he ▸ zero
  · exact shift e he (exponent_induction zero shift (shiftRightOne e))
termination_by e.toNat
decreasing_by
  have hpos : e.toNat ≠ 0 := fun h => he (BitVec.eq_of_toNat_eq h)
  rw [shiftRightOne_toNat]
  omega

theorem eq_of_shiftRightOne {d e : Byte} (hshift : shiftRightOne d = shiftRightOne e)
    (hbit : d.getLsbD 0 = e.getLsbD 0) : d = e := by
  have hhalf := congrArg BitVec.toNat hshift
  rw [shiftRightOne_toNat, shiftRightOne_toNat] at hhalf
  rw [bitZero_eq, bitZero_eq, decide_eq_decide] at hbit
  refine BitVec.eq_of_toNat_eq ?_
  omega

/-- The first event tells the lowest bit. -/
theorem bitEvents_head_eq_mul (e : Byte) (xs : List Event) :
    (bitEvents e 0 ++ xs).head? = some .mul ↔ e.getLsbD 0 = true := by
  unfold bitEvents
  cases e.getLsbD 0 <;> simp

theorem bitEvents_append_inj {d e : Byte} {xs ys : List Event}
    (h : bitEvents d 0 ++ xs = bitEvents e 0 ++ ys) : d.getLsbD 0 = e.getLsbD 0 ∧ xs = ys := by
  have hbit : d.getLsbD 0 = e.getLsbD 0 := by
    rw [Bool.eq_iff_iff, ← bitEvents_head_eq_mul d xs, ← bitEvents_head_eq_mul e ys, h]
  have hevents : bitEvents d 0 = bitEvents e 0 := by rw [bitEvents, bitEvents, hbit]
  exact ⟨hbit, List.append_cancel_left (hevents ▸ h)⟩

theorem workEvents_eq_nil_iff {e : Byte} : workEvents e = [] ↔ e = 0 := by
  refine ⟨fun h => ?_, fun h => h ▸ rfl⟩
  by_contra he
  simp [workEvents_shiftRightOne he, bitEvents] at h

theorem workEvents_injective : Function.Injective workEvents := by
  intro d
  induction d using exponent_induction with
  | zero => exact fun e h => (workEvents_eq_nil_iff.mp h.symm).symm
  | shift d hd ih =>
    intro e h
    have he : e ≠ 0 := fun he => hd (workEvents_eq_nil_iff.mp (h.trans (workEvents_eq_nil_iff.mpr he)))
    rw [workEvents_shiftRightOne hd, workEvents_shiftRightOne he] at h
    obtain ⟨hbit, hrest⟩ := bitEvents_append_inj h
    exact eq_of_shiftRightOne (ih hrest) hbit

theorem expTrace_injective : Function.Injective expTrace := fun d e h => by
  rw [expTrace_eq, expTrace_eq] at h
  exact workEvents_injective (List.append_cancel_left (List.append_cancel_right h))

/-- After 35 core steps an exponentiation shows its trace (40_invocation.md R128). -/
theorem runSteps_expv_trace {s : State} (hin : s.inputs = []) (hm : s.coreByte 2 ≠ 0) :
    ∃ u, runSteps 35 (accepted .expv s) = .next u ∧ u.trace = expTrace (s.coreByte 1) := by
  obtain ⟨u, hrun, _, _, hshown⟩ :=
    (endsWith_accepted .expv hin).of_le (invocationSteps_le s .expv)
  rw [report_expv, expReport_of_modulus hm] at hshown
  exact ⟨u, hrun, congrArg Report.trace hshown⟩

/-- Settles O50: each run ends with the trace of its exponent (`runSteps_expv_trace`), and that determines
the exponent (`expTrace_injective`). -/
theorem exponentiationTraceRevealsTheExponent : Obligations.ExponentiationTraceRevealsTheExponent := by
  unfold Obligations.ExponentiationTraceRevealsTheExponent
  intro s₁ s₂ hst₁ hst₂ hin₁ hin₂ hm₁ hm₂
  obtain ⟨u₁, hrun₁, htrace₁⟩ := runSteps_expv_trace hin₁ hm₁
  obtain ⟨u₂, hrun₂, htrace₂⟩ := runSteps_expv_trace hin₂ hm₂
  refine ⟨_, _, u₁, u₂, exec_idle (State.busy_eq_false.mpr hst₁) .expv,
    exec_idle (State.busy_eq_false.mpr hst₂) .expv, hrun₁, hrun₂, ?_⟩
  rw [htrace₁, htrace₂]
  exact expTrace_injective.eq_iff

/-! ### The values of ST along an exponentiation -/

theorem statesOver_succ {s t : State} (h : coreStep s = .next t) (k : Nat) :
    statesOver (k + 1) s = s.st :: statesOver k t := by
  rw [statesOver, h]

/-- The values of `ST` while one exponent bit is worked off (41_modexp.md R154 to R157). -/
def bitStates (bit : Bool) : List SeqState :=
  .expHead :: if bit then [.expMul, .expSqr, .expShr] else [.expSqr, .expShr]

/-- The values of `ST` from the head of the loop to the end of an exponentiation. -/
def loopStates (e : Byte) : List SeqState :=
  (List.range (bitlen e)).flatMap (fun i => bitStates (e.getLsbD i)) ++ [.expHead, .fin]

theorem loopStates_shiftRightOne {e : Byte} (he : e ≠ 0) :
    loopStates e = bitStates (e.getLsbD 0) ++ loopStates (shiftRightOne e) := by
  simp [loopStates, bitlen_shiftRightOne he, List.range_succ_eq_map, List.flatMap_map,
    shiftRightOne_getLsbD]

section
variable (s : State) (n : SeqState)

/-! No working update of the engine reads or writes `ST`: the last `goto` counts. -/

theorem State.goto_goto (m : SeqState) : (s.goto n).goto m = s.goto m := rfl

theorem State.goto_emit (e : Event) : (s.goto n).emit e = (s.emit e).goto n := rfl

theorem State.goto_multiply : (s.goto n).multiply = s.multiply.goto n := rfl

theorem State.goto_square : (s.goto n).square = s.square.goto n := rfl

theorem State.goto_shiftExp : (s.goto n).shiftExp = s.shiftExp.goto n := rfl

end

/-- The square and the shift step, which end the work on either bit (41_modexp.md R156, R157). -/
theorem statesOver_goto_expSqr {s : State} (hm : s.mod ≠ 0) (k : Nat) :
    statesOver (k + 2) (s.goto .expSqr) = .expSqr :: .expShr ::
      statesOver k (((s.square.emit .sqr).shiftExp.emit .shr).goto .expHead) := by
  rw [statesOver_succ (s := s.goto .expSqr) (coreStep_expSqr rfl hm),
    statesOver_succ (s := (((s.goto .expSqr).square).emit .sqr).goto .expShr) (coreStep_expShr rfl)]
  simp only [State.goto_goto, State.goto_emit, State.goto_square, State.goto_shiftExp, State.goto_st]

theorem statesOver_engineBit {s : State} (h : s.EngineRuns) (hst : s.st = .expHead) (he : s.exp ≠ 0)
    (k : Nat) :
    statesOver (k + 3 + (s.exp.getLsbD 0).toNat) s =
      bitStates (s.exp.getLsbD 0) ++ statesOver k s.engineBit := by
  unfold State.engineBit bitStates
  cases hb : s.exp.getLsbD 0
  · rw [Bool.toNat_false, Nat.add_zero, statesOver_succ (coreStep_expHead_zero hst he hb),
      statesOver_goto_expSqr h.modulus, hst]
    simp
  · rw [Bool.toNat_true, statesOver_succ (coreStep_expHead_one hst he hb),
      statesOver_succ (s := s.goto .expMul) (coreStep_expMul rfl h.modulus),
      State.goto_multiply, State.goto_emit, State.goto_goto,
      statesOver_goto_expSqr (s := s.multiply.emit .mul) h.modulus, hst]
    simp

theorem accepted_expf_opr (s : State) : (accepted .expf s).opr.getLsbD 1 = false := by
  simp [accepted]

/-- The exponent determines the values of `ST`. -/
theorem statesOver_expHead {s : State} (h : s.EngineRuns) (hst : s.st = .expHead) :
    statesOver (loopSteps s.exp) s = loopStates s.exp := by
  induction he : s.exp using exponent_induction generalizing s with
  | zero =>
    have hhead := statesOver_succ (coreStep_expHead_end hst he) 1
    rw [hst] at hhead
    exact hhead.trans (congrArg (SeqState.expHead :: ·)
      (statesOver_succ (s := s.goto .fin) (coreStep_fin rfl) 0))
  | shift e hne ih =>
    subst he
    rw [loopSteps_shiftRightOne hne, statesOver_engineBit h hst hne, loopStates_shiftRightOne hne,
      ih h.engineBit s.engineBit_st s.engineBit_exp]

/-- Settles O40: the outcome and the number of steps are the operation level's (`endsWith_accepted`) at the
constants of this hardware, the values of `ST` those of the exponent 5 (`statesOver_expHead`). -/
theorem fixedExponentiationGives62 : Obligations.FixedExponentiationGives62 := by
  unfold Obligations.FixedExponentiationGives62
  intro s hst hin hcfg
  have hm : s.cfg.fmod ≠ 0 := by rw [hcfg]; decide
  have hengine := onEngine_expf hin hm
  obtain ⟨u, hrun, _, hend, hshown⟩ := endsWith_accepted .expf hin
  rw [invocationSteps_expf hm, hcfg] at hrun
  rw [report_expf, expReport_of_modulus hm, fixedOperands, hcfg] at hshown
  obtain ⟨_, hresult, hrtag, hstatus⟩ := shown_eq_done hshown
  have hloop := statesOver_expHead (s := (accepted .expf s).goto .expHead)
    ⟨⟨hin, rfl, rfl⟩, accepted_expf_opr s, hm⟩ rfl
  have hexp : ((accepted .expf s).goto .expHead).exp = 0x05 := congrArg Config.fexp hcfg
  rw [hexp] at hloop
  have hstates := (statesOver_succ (coreStep_expChk_pos (s := accepted .expf s) rfl hm) 13).trans
    (congrArg (SeqState.expChk :: ·) hloop)
  exact ⟨accepted .expf s, u, exec_idle (State.busy_eq_false.mpr hst) .expf, hrun, hstates, hend,
    hengine.trig_of_end hrun hend, hresult, hrtag, hstatus, congrArg Report.trace hshown⟩

/-! ### One engine, two bindings -/

/-- The same state with another command code latched. -/
def State.withOpr (s : State) (op : BitVec 2) : State := { s with opr := op }

theorem CoreMove.opr_eq {s t : State} (m : CoreMove s t) : t.opr = s.opr := by
  cases m <;> rfl

/-- No core step but `FIN` reads the latched code, and that reads of an exponentiation's only the bit that
says it is one (40_invocation.md R124). -/
theorem CoreMove.withOpr {s t : State} {op : BitVec 2} (m : CoreMove s t)
    (hs : s.opr.getLsbD 1 = false) (hop : op.getLsbD 1 = false) :
    CoreMove (s.withOpr op) (t.withOpr op) := by
  cases m with
  | rest h => exact .rest h
  | reject h hm => exact .reject (s := s.withOpr op) h hm
  | check h hm => exact .check (s := s.withOpr op) h hm
  | loopEnd h he => exact .loopEnd (s := s.withOpr op) h he
  | bitOne h he hb => exact .bitOne (s := s.withOpr op) h he hb
  | bitZero h he hb => exact .bitZero (s := s.withOpr op) h he hb
  | mul h hm => exact .mul (s := s.withOpr op) h hm
  | sqr h hm => exact .sqr (s := s.withOpr op) h hm
  | shr h => exact .shr (s := s.withOpr op) h
  | aEnd h hi => exact .aEnd (s := s.withOpr op) h hi
  | aMiss h i hi hb => exact .aMiss (s := s.withOpr op) h i hi hb
  | aHit h i hi hb => exact .aHit (s := s.withOpr op) h i hi hb
  | bEnd h hi => exact .bEnd (s := s.withOpr op) h hi
  | bIndex h i hi => exact .bIndex (s := s.withOpr op) h i hi
  | fin h =>
    obtain ⟨hresult, htag⟩ := final_of_engine hs
    obtain ⟨hresult', htag'⟩ := final_of_engine (s := s.withOpr op) hop
    have m' := CoreMove.fin (s := s.withOpr op) h
    rw [hresult', htag'] at m'
    rw [hresult, htag]
    exact m'

/-- With another exponentiation's code latched the core goes through the same states. -/
theorem runSteps_withOpr {op : BitVec 2} (hop : op.getLsbD 1 = false) :
    ∀ {k : Nat} {s u : State}, s.inputs = [] → s.opr.getLsbD 1 = false → runSteps k s = .next u →
      runSteps k (s.withOpr op) = .next (u.withOpr op) ∧
        statesOver k s = statesOver k (s.withOpr op)
  | 0, s, u, _, _, hrun => by
    cases hrun
    exact ⟨rfl, rfl⟩
  | k + 1, s, u, hin, hopr, hrun => by
    obtain ⟨t, m, hrest⟩ := runSteps_core_succ hin hrun
    have hstep := coreStep_of_move (m.withOpr hopr hop)
    obtain ⟨hend, hstates⟩ :=
      runSteps_withOpr hop (m.inputs_eq.trans hin) (by rw [m.opr_eq, hopr]) hrest
    refine ⟨(runSteps_core (s := s.withOpr op) hin hstep).trans hend, ?_⟩
    rw [statesOver_succ (coreStep_of_move m), statesOver_succ hstep, hstates]
    rfl

/-- A run that comes to its end has a state at every point, before and after. -/
theorem EndsWith.exists_run {n : Nat} {s : State} {r : Report} (h : EndsWith n s r) (k : Nat) :
    ∃ u, runSteps k s = .next u := by
  obtain ⟨_, hrun, _⟩ := h.of_le (Nat.le_add_left n k)
  exact exists_runSteps_of_add n hrun

/-- The two acceptances differ in the latched code only, when the buffer holds the constants. -/
theorem accepted_expv_eq {s : State} (h : bufferOperands s = fixedOperands s) :
    accepted .expv s = (accepted .expf s).withOpr 0b01 :=
  congrArg ((s.clearOutcome).openWindow 0b01).loadEngine h

/-- Settles O49: the latched code is all the two runs differ in (`accepted_expv_eq`), and neither `ST`,
`TRIG` nor the outcome shown depends on it (`runSteps_withOpr`). -/
theorem fixedAndVariableShareOneEngine : Obligations.FixedAndVariableShareOneEngine := by
  unfold Obligations.FixedAndVariableShareOneEngine
  intro s hst hin hmsg hexp hmod
  have hidle := State.busy_eq_false.mpr hst
  have hoperands : bufferOperands s = fixedOperands s := by
    rw [bufferOperands, hmsg, hexp, hmod, fixedOperands]
  refine ⟨_, _, exec_idle hidle .expf, exec_idle hidle .expv, fun k => ?_⟩
  obtain ⟨u, hrun⟩ := (endsWith_accepted .expf hin).exists_run k
  obtain ⟨hrun', hstates⟩ :=
    runSteps_withOpr (op := 0b01) rfl (s := accepted .expf s) hin (accepted_expf_opr s) hrun
  rw [accepted_expv_eq hoperands]
  exact ⟨hstates, u, _, hrun, hrun', rfl, rfl⟩

end Sys2Proof.Machine
end

section
/-! PROOFS. The comparators (42_compare.md). Acceptance and the loop steps are read off the equations of
Laws/Steps.lean. Of a whole comparison the operation level's outcome is known (`endsWith_cmpaLoop_mismatch`,
`endsWith_cmpaLoop_match`, `endsWith_accepted`); added here is what that outcome does not show: the state the
comparison ends in, with `TRIG` before each step (`EndsWith.finished`), what `CmpA` and `CmpB` say of the
bytes (`cmpA_eq_one_iff`, `cmpB_getLsbD`), and that Variant B runs alike on any two inputs (`InLockstep`). -/

namespace Sys2Proof.Machine

/-! ### Acceptance and the core steps -/

/-- Settles O8: the state an accepted comparator command leads to, written out. -/
theorem comparatorCommandsInitialise : Obligations.ComparatorCommandsInitialise := by
  unfold Obligations.ComparatorCommandsInitialise
  intro s hst
  have hidle := State.busy_eq_false.mpr hst
  exact ⟨exec_idle hidle .cmpe, exec_idle hidle .cmpu⟩

/-- Settles O26: the three moves of Variant A's loop. -/
theorem earlyExitStepFollowsItsRule : Obligations.EarlyExitStepFollowsItsRule := by
  unfold Obligations.EarlyExitStepFollowsItsRule
  exact fun s hst => ⟨fun hend => coreStep_of_move (.aEnd hst hend), fun i hi =>
    ⟨fun hmiss => coreStep_of_move (.aMiss hst i hi hmiss),
      fun hmatch => ⟨_, coreStep_of_move (.aHit hst i hi hmatch), idx_succ_toNat hi, rfl⟩⟩⟩

/-- The accumulator bit by bit (42_compare.md R184). -/
theorem accumulate_acc_getLsbD (s : State) (r a : Byte) (b : Nat) :
    (s.accumulate r a).acc.getLsbD b = (s.acc.getLsbD b || (r.getLsbD b != a.getLsbD b)) := by
  simp [State.accumulate]

/-- Settles O27: the two moves of Variant B's loop. -/
theorem uniformStepFollowsItsRule : Obligations.UniformStepFollowsItsRule := by
  unfold Obligations.UniformStepFollowsItsRule
  exact fun s hst => ⟨fun hend => coreStep_of_move (.bEnd hst hend), fun i hi =>
    ⟨_, coreStep_of_move (.bIndex hst i hi), idx_succ_toNat hi,
      fun b _ => accumulate_acc_getLsbD _ _ _ b, rfl⟩⟩

/-! ### The window of a run that reaches `FIN` -/

/-- A core step never raises `TRIG` (10_state.md R37). -/
theorem CoreMove.trig_of_trig {s t : State} (m : CoreMove s t) (h : t.trig = true) : s.trig = true := by
  cases m with
  | reject | fin => nomatch h
  | rest | check | loopEnd | bitOne | bitZero | mul | sqr | shr | aEnd | aMiss | aHit | bEnd | bIndex =>
    exact h

/-- The core takes nothing from the host and gives nothing to it. -/
theorem runSteps_inputs :
    ∀ {n : Nat} {s v : State}, s.inputs = [] → runSteps n s = .next v → v.inputs = []
  | 0, _, _, hin, hrun => by
    cases hrun
    exact hin
  | _ + 1, _, _, hin, hrun => by
    obtain ⟨t, m, hrest⟩ := runSteps_core_succ hin hrun
    exact runSteps_inputs (m.inputs_eq.trans hin) hrest

theorem trig_of_runSteps_trig :
    ∀ {n : Nat} {s v : State}, s.inputs = [] → runSteps n s = .next v → v.trig = true → s.trig = true
  | 0, _, _, _, hrun, htrig => by
    cases hrun
    exact htrig
  | _ + 1, _, _, hin, hrun, htrig => by
    obtain ⟨t, m, hrest⟩ := runSteps_core_succ hin hrun
    exact m.trig_of_trig (trig_of_runSteps_trig (m.inputs_eq.trans hin) hrest htrig)

/-- Where the core alone has `TRIG` up after `n` steps, it had it up all along. -/
theorem runSteps_trig_of_le {j n : Nat} {s v : State} (hin : s.inputs = [])
    (hrun : runSteps n s = .next v) (htrig : v.trig = true) (hle : j ≤ n) :
    ∃ w, runSteps j s = .next w ∧ w.trig = true := by
  rw [← Nat.add_sub_cancel' hle] at hrun
  obtain ⟨w, hw⟩ := exists_runSteps_of_add _ hrun
  have hrest : runSteps (n - j) w = .next v := (runSteps_add _ hw).symm.trans hrun
  exact ⟨w, hw, trig_of_runSteps_trig (runSteps_inputs hin hw) hrest htrig⟩

/-- The state the `FIN` step leads to (40_invocation.md R124). -/
def State.finished (s : State) : State :=
  ((s.publish s.finalResult s.finalTag).closeWindow).goto .idle

@[simp] theorem State.finished_idx (s : State) : s.finished.idx = s.idx := rfl

@[simp] theorem State.finished_flag (s : State) : s.finished.flag = s.flag := rfl

theorem coreStep_finished {s : State} (h : s.st = .fin) : coreStep s = .next s.finished :=
  coreStep_fin h

theorem accepted_inFlight (i : Instr) {s : State} (hin : s.inputs = []) : (accepted i s).InFlight := by
  cases i <;> exact ⟨hin, rfl, rfl⟩

/-- A run that reaches `FIN` with `TRIG` up ends one step later, in the state that shows its outcome, and
`TRIG` was up before each step. -/
theorem EndsWith.finished {n : Nat} {s v : State} {r : Report} (h : EndsWith (n + 1) s r)
    (hin : s.inputs = []) (hrun : runSteps n s = .next v) (hst : v.st = .fin) (htrig : v.trig = true) :
    runSteps (n + 1) s = .next v.finished ∧ v.finished.shown = r ∧
      ∀ j < n + 1, ∃ w, runSteps j s = .next w ∧ w.trig = true := by
  have hend : runSteps (n + 1) s = .next v.finished :=
    (runSteps_add 1 hrun).trans (runSteps_core (runSteps_inputs hin hrun) (coreStep_finished hst))
  obtain ⟨u, hu, _, _, hshown⟩ := h
  cases hu.symm.trans hend
  exact ⟨hend, hshown, fun j hj => runSteps_trig_of_le hin hrun htrig (Nat.le_of_lt_succ hj)⟩

/-! ### CMPE as a whole -/

/-- Variant A leaves its loop at the first mismatch (42_compare.md R183). -/
theorem runSteps_cmpaLoop_mismatch {s : State} {k : Fin 8} (hin : s.inputs = []) (hst : s.st = .cmpaLoop)
    (hidx : s.idx = 0) (hmiss : s.coreByte k.val ≠ s.refByte k)
    (hmatch : ∀ j : Fin 8, j.val < k.val → s.coreByte j.val = s.refByte j) :
    runSteps (k.val + 1) s =
      .next ((((s.examined k.val).emit (.cmp k)).markIncorrect).goto .fin) :=
  have hlast : (s.examined k.val).idx.toNat = k.val := s.examined_idx k.isLt.le
  (runSteps_add 1 (runSteps_cmpaLoop hin hst hidx k.val k.isLt.le hmatch)).trans
    (runSteps_core hin (coreStep_of_move (.aMiss (s := s.examined k.val) hst k hlast hmiss)))

/-- Variant A leaves its loop after the last index (42_compare.md R183). -/
theorem runSteps_cmpaLoop_match {s : State} (hin : s.inputs = []) (hst : s.st = .cmpaLoop)
    (hidx : s.idx = 0) (hmatch : ∀ j : Fin 8, s.coreByte j.val = s.refByte j) :
    runSteps 9 s = .next ((s.examined 8).goto .fin) :=
  (runSteps_add 1 (runSteps_cmpaLoop hin hst hidx 8 (Nat.le_refl 8) fun j _ => hmatch j)).trans
    (runSteps_core hin (coreStep_of_move (.aEnd (s := s.examined 8) hst rfl)))

/-- Settles O43: in both cases the run reaches `FIN` in the state of `runSteps_cmpaLoop_mismatch` or
`runSteps_cmpaLoop_match`, and ends with the operation level's outcome. -/
theorem earlyExitComparisonOutcome : Obligations.EarlyExitComparisonOutcome := by
  unfold Obligations.EarlyExitComparisonOutcome
  intro s hst hin
  have hflight := accepted_inFlight .cmpe hin
  refine ⟨accepted .cmpe s, exec_idle (State.busy_eq_false.mpr hst) .cmpe, ?_, ?_⟩
  · intro k hmiss hmatch
    obtain ⟨hend, hshown, hopen⟩ :=
      (endsWith_cmpaLoop_mismatch hflight rfl rfl rfl hmiss hmatch).finished hflight.alone
        (runSteps_cmpaLoop_mismatch hflight.alone rfl rfl hmiss hmatch) rfl rfl
    obtain ⟨_, hresult, hrtag, hstatus⟩ := shown_eq_done hshown
    refine ⟨_, hend, rfl, rfl, hstatus, hrtag, hresult, ?_, congrArg Report.trace hshown, hopen⟩
    simp [State.examined_idx _ k.isLt.le]
  · intro hmatch
    obtain ⟨hend, hshown, hopen⟩ :=
      (endsWith_cmpaLoop_match hflight rfl rfl rfl rfl hmatch).finished hflight.alone
        (runSteps_cmpaLoop_match hflight.alone rfl rfl hmatch) rfl rfl
    obtain ⟨_, hresult, hrtag, hstatus⟩ := shown_eq_done hshown
    refine ⟨_, hend, rfl, rfl, hstatus, hrtag, hresult, ?_, congrArg Report.trace hshown, hopen⟩
    simp [State.examined_idx]

theorem compareA_trig (s : State) (i : Fin 8) : (s.compareA i).trig = s.trig := by
  unfold State.compareA
  split <;> rfl

/-- Where the bytes below `k` match, Variant A comes to index `k` and leaves `TRIG` as it is, whatever it
finds there. -/
theorem runSteps_cmpaLoop_trig {s : State} {k : Fin 8} (hin : s.inputs = []) (hst : s.st = .cmpaLoop)
    (hidx : s.idx = 0) (hmatch : ∀ j : Fin 8, j.val < k.val → s.coreByte j.val = s.refByte j) :
    ∃ v, runSteps (k.val + 1) s = .next v ∧ v.trig = s.trig := by
  have hlt : (s.examined k.val).idx.toNat < 8 := by
    rw [State.examined_idx s k.isLt.le]
    exact k.isLt
  exact ⟨_, (runSteps_add 1 (runSteps_cmpaLoop hin hst hidx k.val k.isLt.le hmatch)).trans
    (runSteps_core hin (coreStep_cmpaLoop_index (s := s.examined k.val) hst hlt)), compareA_trig _ _⟩

/-- Settles O48: the first run has ended (`earlyExitComparisonOutcome`), and the second has come no
further than the step at index `k₂` (`runSteps_cmpaLoop_trig`). -/
theorem earlyExitWindowGrowsWithThePrefix : Obligations.EarlyExitWindowGrowsWithThePrefix := by
  unfold Obligations.EarlyExitWindowGrowsWithThePrefix
  intro s₁ s₂ k₁ k₂ hst₁ hst₂ hin₁ hin₂ hmiss₁ hmatch₁ hmatch₂ hlt
  obtain ⟨t₁, hexec₁, hmismatch, _⟩ := earlyExitComparisonOutcome s₁ hst₁ hin₁
  obtain ⟨u₁, hrun₁, _, hclosed, _⟩ := hmismatch k₁ hmiss₁ hmatch₁
  obtain ⟨v, hv, hup⟩ := runSteps_cmpaLoop_trig (s := accepted .cmpe s₂) hin₂ rfl rfl hmatch₂
  obtain ⟨u₂, hrun₂, hopen⟩ :=
    runSteps_trig_of_le (j := k₁.val + 2) (s := accepted .cmpe s₂) hin₂ hv hup (Nat.succ_le_succ hlt)
  exact ⟨t₁, _, u₁, u₂, hexec₁, exec_idle (State.busy_eq_false.mpr hst₂) .cmpe, hrun₁, hrun₂, hclosed,
    hopen⟩

/-! ### What `CmpA` and `CmpB` say of the bytes -/

theorem attempt_eq_ref_iff (s : State) :
    s.attempt = s.cfg.ref ↔ ∀ i : Fin 8, s.coreByte i.val = s.cfg.ref.get i := by
  simp only [← attempt_get]
  exact ⟨fun h i => by rw [h], fun h => Vector.ext fun i hi => h ⟨i, hi⟩⟩

theorem cmpA_eq_one_iff {ref x : Vector Byte 8} : cmpA ref x = 0x01 ↔ x = ref := by
  unfold cmpA
  split
  · next heq => exact ⟨fun _ => heq, fun _ => rfl⟩
  · next hne => exact ⟨fun h => absurd h (by decide), fun heq => absurd heq hne⟩

/-- A bit of an accumulator is set when it was set before, or some index of `l` differs in it. -/
theorem foldl_differences_getLsbD (ref x : Vector Byte 8) (b : Nat) :
    ∀ (l : List (Fin 8)) (acc : Byte),
      (l.foldl (fun acc i => acc ||| (x.get i ^^^ ref.get i)) acc).getLsbD b = true ↔
        acc.getLsbD b = true ∨ ∃ i ∈ l, (x.get i).getLsbD b ≠ (ref.get i).getLsbD b
  | [], acc => by simp
  | i :: l, acc => by
    rw [List.foldl_cons, foldl_differences_getLsbD ref x b l, List.exists_mem_cons_iff, ← or_assoc]
    simp

/-- `CmpB` collects the differences of all the indices (42_compare.md R185). -/
theorem cmpB_getLsbD (ref x : Vector Byte 8) (b : Nat) :
    (cmpB ref x).getLsbD b = true ↔ ∃ i, (x.get i).getLsbD b ≠ (ref.get i).getLsbD b := by
  simpa [cmpB] using foldl_differences_getLsbD ref x b (List.finRange 8) 0x00

theorem cmpB_eq_zero_iff {ref x : Vector Byte 8} : cmpB ref x = 0x00 ↔ x = ref := by
  refine ⟨fun hzero => Vector.ext fun i hi => BitVec.eq_of_getLsbD_eq fun b _ => ?_, ?_⟩
  · by_contra hne
    have hbit := (cmpB_getLsbD ref x b).mpr ⟨⟨i, hi⟩, hne⟩
    simp [hzero] at hbit
  · rintro rfl
    refine BitVec.eq_of_getLsbD_eq fun b _ => ?_
    have hbit := (cmpB_getLsbD x x b).not.mpr (by simp)
    simpa using hbit

/-! ### CMPU as a whole -/

@[simp] theorem State.accumulated_idx (s : State) (k : Nat) :
    (s.accumulated k).idx = (s.examined k).idx := rfl

@[simp] theorem State.accumulated_flag (s : State) (k : Nat) : (s.accumulated k).flag = s.flag := rfl

/-- Variant B leaves its loop after the last index (42_compare.md R184). -/
theorem runSteps_cmpbLoop_end {s : State} (hin : s.inputs = []) (hst : s.st = .cmpbLoop)
    (hidx : s.idx = 0) (hacc : s.acc = 0x00) : runSteps 9 s = .next ((s.accumulated 8).goto .fin) :=
  (runSteps_add 1 (runSteps_cmpbLoop hin hst hidx hacc 8 (Nat.le_refl 8))).trans
    (runSteps_core hin (coreStep_of_move (.bEnd (s := s.accumulated 8) hst rfl)))

/-- Settles O44: the run reaches `FIN` in the state of `runSteps_cmpbLoop_end` and ends with the operation
level's outcome, whose accumulator is `CmpB` (`cmpB_getLsbD`). -/
theorem uniformComparisonOutcome : Obligations.UniformComparisonOutcome := by
  unfold Obligations.UniformComparisonOutcome
  intro s hst hin
  have hflight := accepted_inFlight .cmpu hin
  have houtcome : EndsWith 10 (accepted .cmpu s)
      (cmpReport s.cfg (cmpB s.cfg.ref s.attempt) cmpBTrace) := endsWith_accepted .cmpu hin
  obtain ⟨hend, hshown, hopen⟩ := houtcome.finished hflight.alone
    (runSteps_cmpbLoop_end hflight.alone rfl rfl rfl) rfl rfl
  obtain ⟨_, hresult, hrtag, hstatus⟩ := shown_eq_done hshown
  refine ⟨accepted .cmpu s, _, exec_idle (State.busy_eq_false.mpr hst) .cmpu, hend, rfl, rfl, hstatus,
    hrtag, ?_, ?_, fun b _ => ?_, congrArg Report.trace hshown, hopen⟩
  · simp [State.examined_idx]
  · simp [accepted]
  · rw [hresult, cmpB_getLsbD]
    simp only [attempt_get]

/-! ### The two variants side by side -/

/-- Settles O45: both runs end with the operation level's outcome (`endsWith_accepted`), and both results
say whether the attempt is the secret (`cmpA_eq_one_iff`, `cmpB_eq_zero_iff`). -/
theorem comparatorsAgreeWithOppositePolarity : Obligations.ComparatorsAgreeWithOppositePolarity := by
  unfold Obligations.ComparatorsAgreeWithOppositePolarity
  intro s hst hin
  have hidle := State.busy_eq_false.mpr hst
  obtain ⟨ua, hrunA, _, hendA, hshownA⟩ := endsWith_accepted .cmpe hin
  obtain ⟨ub, hrunB, _, hendB, hshownB⟩ := endsWith_accepted .cmpu hin
  obtain ⟨hdoneA, hresultA, hrtagA, _⟩ := shown_eq_done hshownA
  obtain ⟨hdoneB, hresultB, hrtagB, _⟩ := shown_eq_done hshownB
  refine ⟨_, ua, _, ub, _, exec_idle hidle .cmpe, cmpASteps_le s.cfg.ref s.attempt, hrunA, hendA,
    exec_idle hidle .cmpu, hrunB, hendB, hdoneA, hdoneB, hrtagA, hrtagB, ?_, ?_⟩
  · rw [hresultA, hresultB, cmpA_eq_one_iff, cmpB_eq_zero_iff]
  · rw [hresultA, cmpA_eq_one_iff, attempt_eq_ref_iff]

/-! ### Two runs of CMPU -/

/-- Two cores alone, both at the same point of a `CMPU` invocation or at rest after it, whatever their
inputs, references and accumulators are (42_compare.md R188). -/
structure InLockstep (s₁ s₂ : State) : Prop where
  alone₁ : s₁.inputs = []
  alone₂ : s₂.inputs = []
  st : s₂.st = s₁.st
  idx : s₂.idx = s₁.idx
  trig : s₂.trig = s₁.trig
  trace : s₂.trace = s₁.trace
  point : s₁.st = .idle ∨ s₁.st = .fin ∨ s₁.st = .cmpbLoop ∧ s₁.idx.toNat ≤ 8

/-- No core step of `CMPU` depends on anything but what the two cores have in common. -/
theorem InLockstep.coreMove {s₁ s₂ : State} (h : InLockstep s₁ s₂) :
    ∃ t₁ t₂, CoreMove s₁ t₁ ∧ CoreMove s₂ t₂ ∧ InLockstep t₁ t₂ := by
  rcases h.point with hidle | hfin | ⟨hloop, hle⟩
  · exact ⟨s₁, s₂, .rest hidle, .rest (h.st.trans hidle), h⟩
  · exact ⟨_, _, .fin hfin, .fin (h.st.trans hfin), h.alone₁, h.alone₂, rfl, h.idx, rfl,
      congrArg (· ++ [Event.trigFall]) h.trace, .inl rfl⟩
  · have hloop₂ := h.st.trans hloop
    rcases hle.eq_or_lt with h8 | hlt
    · have hend : s₁.idx = 8 := BitVec.eq_of_toNat_eq h8
      exact ⟨_, _, .bEnd hloop hend, .bEnd hloop₂ (h.idx.trans hend), h.alone₁, h.alone₂, rfl, h.idx,
        h.trig, h.trace, .inr (.inl rfl)⟩
    · obtain ⟨i, hi⟩ : ∃ i : Fin 8, s₁.idx.toNat = i.val := ⟨⟨_, hlt⟩, rfl⟩
      have hi₂ : s₂.idx.toNat = i.val := h.idx ▸ hi
      have hnext : (s₁.idx + 1).toNat ≤ 8 := (idx_succ_toNat hi).trans_le i.isLt
      exact ⟨_, _, .bIndex hloop i hi, .bIndex hloop₂ i hi₂, h.alone₁, h.alone₂, rfl,
        congrArg (· + 1) h.idx, h.trig, congrArg (· ++ [Event.cmp i]) h.trace,
        .inr (.inr ⟨rfl, hnext⟩)⟩

/-- In lockstep two cores go through the same values of `ST`, and stay in lockstep. -/
theorem InLockstep.run :
    ∀ (k : Nat) {s₁ s₂ : State}, InLockstep s₁ s₂ →
      statesOver k s₁ = statesOver k s₂ ∧
        ∃ u₁ u₂, runSteps k s₁ = .next u₁ ∧ runSteps k s₂ = .next u₂ ∧ InLockstep u₁ u₂
  | 0, s₁, s₂, h => ⟨rfl, s₁, s₂, rfl, rfl, h⟩
  | k + 1, _, _, h => by
    obtain ⟨t₁, t₂, m₁, m₂, hnext⟩ := h.coreMove
    have hstep₁ := coreStep_of_move m₁
    have hstep₂ := coreStep_of_move m₂
    obtain ⟨hstates, u₁, u₂, hrun₁, hrun₂, hend⟩ := hnext.run k
    refine ⟨?_, u₁, u₂, (runSteps_core h.alone₁ hstep₁).trans hrun₁,
      (runSteps_core h.alone₂ hstep₂).trans hrun₂, hend⟩
    rw [statesOver_succ hstep₁, statesOver_succ hstep₂, h.st, hstates]

theorem accepted_cmpu_inLockstep {s₁ s₂ : State} (hin₁ : s₁.inputs = []) (hin₂ : s₂.inputs = []) :
    InLockstep (accepted .cmpu s₁) (accepted .cmpu s₂) :=
  ⟨hin₁, hin₂, rfl, rfl, rfl, rfl, .inr (.inr ⟨rfl, Nat.zero_le 8⟩)⟩

/-- Settles O47: any two acceptances are in lockstep, and so is every state after them
(`InLockstep.run`); the clock cycles are a sum over the values of `ST`. -/
theorem uniformComparisonHidesItsInputs : Obligations.UniformComparisonHidesItsInputs := by
  unfold Obligations.UniformComparisonHidesItsInputs
  intro s₁ s₂ hst₁ hst₂ hin₁ hin₂
  refine ⟨_, _, exec_idle (State.busy_eq_false.mpr hst₁) .cmpu,
    exec_idle (State.busy_eq_false.mpr hst₂) .cmpu, fun k => ?_⟩
  obtain ⟨hstates, u₁, u₂, hrun₁, hrun₂, hend⟩ := (accepted_cmpu_inLockstep hin₁ hin₂).run k
  refine ⟨hstates, ?_, u₁, u₂, hrun₁, hrun₂, hend.trace.symm, hend.trig.symm, hend.idx.symm⟩
  rw [cyclesOver, cyclesOver, hstates]

end Sys2Proof.Machine
end

section
/-! PROOFS. The two errors (60_exceptions.md R210 to R217): what each leaves behind, and that no step but
these two records one. What a step can do to `ERR` is said once, by `ErrorMove`. -/

namespace Sys2Proof.Machine

/-! ### What each error leaves behind -/

/-- A byte is illegal exactly when it is none of the four legal values (30_encoding.md R92). -/
theorem decode_eq_error_iff {c : Byte} {r : Reject} : decode c = .error r ↔ 4 ≤ c.toNat := by
  constructor
  · intro hd
    by_contra hlt
    obtain ⟨i, rfl⟩ := exists_encode_eq (Nat.lt_of_not_le hlt)
    cases (decode_encode i).symm.trans hd
  · intro hge
    cases hd : decode c with
    | ok i => exact absurd (toNat_lt_of_decode hd) (Nat.not_lt.mpr hge)
    | error r' => cases r; cases r'; rfl

/-- After `MODZERO` the host reads `ERR` with code 1 (60_exceptions.md R211). -/
theorem statusByte_modzero (s : State) :
    ((s.closeWindow.raise .modzero).goto .idle).statusByte = 0x0C :=
  State.statusByte_of (b := false) (d := false) (e := true) (c := .modzero) rfl rfl rfl rfl

/-- After `ILLCMD` the host reads `ERR` with code 2 (60_exceptions.md R212). -/
theorem statusByte_illcmd {s : State} (hst : s.st = .idle) :
    (s.clearOutcome.raise .illcmd).statusByte = 0x14 :=
  State.statusByte_of (b := false) (d := false) (e := true) (c := .illcmd)
    (State.busy_eq_false.mpr hst) rfl rfl rfl

/-- Settles O11: an illegal byte written while idle is the move `Move.illegal`. -/
theorem illegalCommandRecordsIllcmd : Obligations.IllegalCommandRecordsIllcmd := by
  unfold Obligations.IllegalCommandRecordsIllcmd
  intro s c rest hin hst hc
  have hd : decode c = .error .zeroFieldSet := decode_eq_error_iff.mpr hc
  exact ⟨_, step_of_move (.illegal hin (State.busy_eq_false.mpr hst) hd), rfl,
    statusByte_illcmd (s := { s with inputs := rest }) hst⟩

/-- Settles O42: acceptance loads the modulus 0 from the buffer, and the check step rejects it. -/
theorem variableExponentiationRejectsZeroModulus :
    Obligations.VariableExponentiationRejectsZeroModulus := by
  unfold Obligations.VariableExponentiationRejectsZeroModulus
  intro s hst hin hzero
  have hcheck := coreStep_expChk_zero (s := accepted .expv s) rfl hzero
  refine ⟨accepted .expv s, _, exec_idle (State.busy_eq_false.mpr hst) .expv, rfl,
    runSteps_core hin hcheck, rfl, rfl, statusByte_modzero _, rfl, rfl, rfl, rfl, fun i => ?_⟩
  simp [State.written]

/-! ### What one step does to ERR -/

/-- Everything a step from `s` to `t` can do to `ERR`: the last two record an error, in the states from
which R211 and R212 raise it. -/
inductive ErrorMove (s t : State) : Prop where
  | keep (h : t.err = s.err)
  | clear (h : t.err = false)
  | modzero {rest : List Input} (hturn : s.inputs = [] ∨ s.inputs = .core :: rest)
      (hst : s.st = .expChk) (hm : s.mod = 0)
      (h : t = ((({ s with inputs := rest } : State).closeWindow).raise .modzero).goto .idle)
  | illcmd {c : Byte} {rest : List Input} (hin : s.inputs = .wr addrCmd c :: rest)
      (hst : s.st = .idle) (hc : 4 ≤ c.toNat)
      (h : t = (({ s with inputs := rest } : State).clearOutcome).raise .illcmd)

/-- Of the core steps only the zero-modulus exit touches `ERR`. -/
theorem CoreMove.errorMove {s t : State} {rest : List Input}
    (hturn : s.inputs = [] ∨ s.inputs = .core :: rest) (m : CoreMove { s with inputs := rest } t) :
    ErrorMove s t := by
  cases m with
  | reject hst hm => exact .modzero hturn hst hm rfl
  | rest | check | loopEnd | bitOne | bitZero | mul | sqr | shr | aEnd | aMiss | aHit | bEnd | bIndex
    | fin => exact .keep rfl

/-- If a step answers a next state, one of the moves of `ERR` was made. -/
theorem step_errorMove {s t : State} (hstep : step s = .next t) : ErrorMove s t := by
  cases step_move hstep with
  | alone hin m => exact CoreMove.errorMove (rest := s.inputs) (.inl hin) m
  | turn hin m => exact m.errorMove (.inr hin)
  | ignored | stored | read => exact .keep rfl
  | command => exact .clear (congrArg PortRegs.err (accepted_portRegs _ _))
  | illegal hin hb hd =>
    exact .illcmd hin (State.busy_eq_false.mp hb) (decode_eq_error_iff.mp hd) rfl
  | reset => exact .clear rfl
  | poll => exact .keep (congrArg PortRegs.err (hostWait_portRegs _))
  | answer => exact .keep (congrArg PortRegs.err (hostAnswer_portRegs _))

/-- Settles O32: of the moves of `ERR` only the two errors set it; both leave the result registers alone,
and `TRIG` is low because the one closes the window and the other finds it closed. -/
theorem onlyTwoErrorSources : Obligations.OnlyTwoErrorSources := by
  unfold Obligations.OnlyTwoErrorSources
  intro s t hinv hstep hclear hset
  cases step_errorMove hstep with
  | keep h => cases hset.symm.trans (h.trans hclear)
  | clear h => cases hset.symm.trans h
  | modzero hturn hst hm h =>
    subst h
    exact ⟨rfl, rfl, rfl, rfl, rfl,
      .inl ⟨hst, hm, statusByte_modzero _, hturn.imp_right fun hin => ⟨_, hin⟩⟩⟩
  | @illcmd c rest hin hst hc h =>
    subst h
    exact ⟨rfl, hst, hinv.trig_of_idle hst, rfl, rfl,
      .inr ⟨hst, statusByte_illcmd (s := { s with inputs := rest }) hst, c, rest, hin, hc⟩⟩

end Sys2Proof.Machine
end

section
/-! PROOFS. What the host can rely on at reset, while busy, and when it keeps its duties
(70_reset_and_hazards.md R240 to R246): a reset event restores the specified fields, a write made while busy
is lost, a `WAIT` takes two steps for each core step still to come and one for its last poll
(`State.Inv.wait_ends`), and a dutiful command write is the acceptance of a command whose outcome is a
result (`report_of_modulusGiven`). -/

namespace Sys2Proof.Machine

/-! ### Reset -/

theorem State.afterRst_written (s : State) (i : Nat) : s.afterRst.written i = false := by
  simp [State.written]

theorem State.afterRst_statusByte (s : State) : s.afterRst.statusByte = 0x00 :=
  State.statusByte_of (b := false) (d := false) (e := false) (c := .none) rfl rfl rfl rfl

/-- Settles O19: the step is the reset event of `State.afterRst`, which writes the specified fields out. -/
theorem resetEventRestoresTheResetTable : Obligations.ResetEventRestoresTheResetTable := by
  unfold Obligations.ResetEventRestoresTheResetTable
  intro s rest hin
  exact ⟨_, step_reset hin, rfl, rfl, rfl, rfl, State.afterRst_statusByte _, rfl, rfl,
    State.afterRst_written _, rfl, rfl, rfl⟩

/-! ### Writes while busy -/

/-- Settles O12: a write while busy is the move `Move.ignored`, whatever its address. -/
theorem busyWritesAreLost : Obligations.BusyWritesAreLost := by
  unfold Obligations.BusyWritesAreLost
  intro s a v rest hin hst
  exact step_of_move (.ignored hin (.inl (State.busy_eq_true.mpr hst)))

/-! ### The end of a WAIT -/

/-- A `WAIT` is a poll and a turn of the core for each core step the invocation still needs, then a poll
that finds the core idle; by induction on a bound on those steps. -/
theorem State.Inv.wait_ends {rest : List Input} :
    ∀ {n : Nat} {s : State} (rs : List (HostAddr × Byte)), s.Inv → s.stepsLeft ≤ n →
      ∃ (k : Nat) (u : State) (rs' : List (HostAddr × Byte)), k ≤ 2 * n + 1 ∧ u.st = .idle ∧
        runSteps k (s.withHost (.wait :: rest) rs) =
          .next (u.withHost rest (rs' ++ [(addrStatus, u.statusByte)]))
  | n, s, rs, h, hle => by
    by_cases hst : s.st = .idle
    · exact ⟨1, s, rs, by omega, hst, runSteps_next (step_withHost_wait_idle hst)⟩
    · obtain ⟨t, m⟩ := h.exists_coreMove
      have hlt := m.stepsLeft_lt hst
      cases n with
      | zero => omega
      | succ n =>
        obtain ⟨k, u, rs', hk, hend, hrun⟩ :=
          (m.inv h).wait_ends (rs ++ [(addrStatus, s.statusByte)]) (show t.stepsLeft ≤ n by omega)
        have hpoll : runSteps (k + 2) (s.withHost (.wait :: rest) rs) =
            runSteps k (t.withHost (.wait :: rest) (rs ++ [(addrStatus, s.statusByte)])) :=
          (runSteps_next (step_withHost_wait_busy hst)).trans
            (runSteps_next (step_withHost_core (coreStep_of_move m)))
        exact ⟨k + 2, u, rs', by omega, hend, hpoll.trans hrun⟩

/-- Settles O56: `State.Inv.wait_ends` with at most 35 core steps to come (`State.stepsLeft_le`); bit 0 of
the last byte read is `BUSY` of an idle core. -/
theorem waitEnds : Obligations.WaitEnds := by
  unfold Obligations.WaitEnds
  intro s h hin
  obtain ⟨k, u, rs, hk, hend, hrun⟩ := h.wait_ends (rest := []) s.reads s.stepsLeft_le
  rw [State.withHost_self hin] at hrun
  obtain ⟨hbusy, _⟩ := u.statusByte_layout
  exact ⟨k, _, hk, hrun, hend, rfl, rs, u.statusByte, rfl, hbusy.trans (State.busy_eq_false.mpr hend)⟩

/-! ### The duties at a command write -/

/-- Duty H1 is that every byte the command reads has been written. -/
theorem bufferReady_iff {i : Instr} {s : State} :
    bufferReady i s = true ↔ ∀ j < readsBelow i, s.written j = true := by
  simp [bufferReady]

/-- The duties at a write to `CMD`: H2 asks for an idle core, H4 for a legal byte, H1 and H5 for its
operands. -/
theorem dutiful_command_iff {s : State} {c : Byte} :
    dutiful (.wr addrCmd c) s = true ↔
      s.st = .idle ∧ ∃ i, decode c = .ok i ∧ bufferReady i s = true ∧ modulusGiven i s = true := by
  cases hd : decode c <;> simp [dutiful, hd, State.busy_eq_false]

theorem coreByte_of_written {s : State} {j : Nat} (h : s.written j = true) :
    s.coreByte j = s.ibuf.read j := if_pos h

/-- With the fixed modulus not 0 and duty H5 kept, the operation level's outcome is a result
(40_invocation.md R130). -/
theorem report_of_modulusGiven {i : Instr} {s : State} (hfixed : s.cfg.fmod ≠ 0)
    (hgiven : modulusGiven i s = true) :
    ∃ r tag tr, report s (encode i) =
      { kind := .done, result := some r, rtag := some tag, status := 0x02, trace := tr } := by
  cases i with
  | expf => exact ⟨_, _, _, expReport_of_modulus (o := fixedOperands s) hfixed s.cfg⟩
  | expv =>
    have hm : s.coreByte 2 ≠ 0 := bne_iff_ne.mp hgiven
    exact ⟨_, _, _, expReport_of_modulus (o := bufferOperands s) hm s.cfg⟩
  | cmpe | cmpu => exact ⟨_, _, _, rfl⟩

/-- Settles O57: the write is accepted, and the command ends with the operation level's outcome
(`endsWith_accepted`) within 35 steps; by `report_of_modulusGiven` that is a result, with `ERR` = 0 in its
`STATUS` byte. -/
theorem dutifulCommandGetsAResult : Obligations.DutifulCommandGetsAResult := by
  unfold Obligations.DutifulCommandGetsAResult
  intro s c hin hcfg hdutiful
  obtain ⟨hst, i, hd, hready, hgiven⟩ := dutiful_command_iff.mp hdutiful
  have hfixed : s.cfg.fmod ≠ 0 := by rw [hcfg]; decide
  obtain ⟨r, tag, tr, hreport⟩ := report_of_modulusGiven hfixed hgiven
  obtain ⟨u, hrun, _, hend, hshown⟩ := endsWith_accepted i (s := s.withHost [] s.reads) rfl
  obtain ⟨hdone, _, _, hstatus⟩ := shown_eq_done (hshown.trans hreport)
  obtain ⟨_, _, herr, _⟩ := u.statusByte_layout
  refine ⟨i, _, u, _, hd, fun j hj => coreByte_of_written (bufferReady_iff.mp hready j hj),
    step_of_move (.command hin (State.busy_eq_false.mpr hst) hd), invocationSteps_le _ i, hrun, hend,
    hdone, ?_⟩
  rw [← herr, hstatus]
  decide

end Sys2Proof.Machine
end
